-- ==== Sys2Proof/Word.lean ====
section
/-! DEFINITION. The words of ASMCORE (00_scope.md R11, R12; 10_state.md R22, R32, R33): bytes, the 32-bit
operand value, the 4-bit opcode ordinal, a token's place in the line, and the four forms an operand can take. -/

namespace Sys2Proof

/-- A byte, 8 bits (R12). -/
abbrev Byte := BitVec 8

/-- An operand value, `VALUE_BITS` = 32 (R10, R33). -/
abbrev Word := BitVec 32

/-- An opcode ordinal, 0 to 15 (R32): "Ordinal value is the wire representation". -/
abbrev OpOrdinal := BitVec 4

/-- The place of a token in the line: its first index and its length (R22: `TOKn_S`, `TOKn_N`). -/
structure Span where
  start : Nat
  len   : Nat
  deriving DecidableEq, Repr

/-- What the second token of a line is (42_operand_parser.md R165, 47_line_compiler.md R268): not there, a literal
with its 32-bit value, or a token that `ParseOperand` turns away for one of its two reasons. -/
inductive Operand where
  /-- the line has one token (R264) -/
  | absent
  /-- a well-formed literal in the parser's range -/
  | value (v : Word)
  /-- MalformedNumber (R167) -/
  | malformed
  /-- NumberOutOfRange (R168) -/
  | outOfRange
  deriving DecidableEq, Repr

end Sys2Proof
end

