-- ==== Sys2Proof/Machine/Operands.lean ====
section
/-! DEFINITION. The operand parser (42_operand_parser.md R160 to R179): digit values, base detection and
`ParseOperand`, a pure function of the token's bytes (R177), and the same with the 32-bit accumulator of R166. -/

namespace Sys2Proof

/-- `M_MAX` = 2^32 − 1, the largest magnitude the parser accepts (00_scope.md R10, decision D3); log entry 10. -/
def mMax : Nat := 4294967295

/-- `ABSENT_OPERAND` = 0x00000000, the value encoded when a line has one token (R10, 47_line_compiler.md R264,
decision D2); log entry 9. -/
def absentOperand : Word := 0

/-- `DigitVal` (R163). -/
def digitVal (c : Byte) : Option Nat :=
  let n := c.toNat
  if 0x30 ≤ n ∧ n ≤ 0x39 then some (n - 0x30)
  else if 0x61 ≤ n ∧ n ≤ 0x66 then some (n - 0x61 + 10)
  else if 0x41 ≤ n ∧ n ≤ 0x46 then some (n - 0x41 + 10)
  else none

/-- A byte is a digit of base `base` when `DigitVal` gives a number less than it (R163). -/
def isDigit (base : Nat) (c : Byte) : Bool :=
  match digitVal c with
  | some d => d < base
  | none => false

/-- The optional sign, first byte of the token (R165, decision D6): whether it is `-`, and the bytes after it. -/
def splitSign : List Byte → Bool × List Byte
  | [] => (false, [])
  | c :: cs => if c = 0x2B then (false, cs) else if c = 0x2D then (true, cs) else (false, c :: cs)

/-- A hexadecimal prefix: `0`, then `x` or `X`, then a hexadecimal digit (R164, decision D8). -/
def hasHexPrefix : List Byte → Bool
  | z :: x :: d :: _ => z = 0x30 && (x = 0x78 || x = 0x58) && isDigit 16 d
  | _ => false

/-- Base detection on the bytes after the sign: the base and the bytes from the first digit on (R164). -/
def detectBase (t : List Byte) : Nat × List Byte :=
  if hasHexPrefix t then (16, t.drop 2)
  else if t.head? = some 0x30 then (8, t)
  else (10, t)

/-- What the digit loop of R165 leaves: the magnitude, the sticky overflow bit, the number of digits, the bytes
it stopped before. -/
structure DigitScan where
  mag  : Nat
  ovf  : Bool
  ndig : Nat
  rest : List Byte
  deriving DecidableEq, Repr

/-- The digit loop of R165, over unbounded integers. -/
def scanDigits (base mag : Nat) (ovf : Bool) (ndig : Nat) : List Byte → DigitScan
  | [] => ⟨mag, ovf, ndig, []⟩
  | c :: cs =>
    match digitVal c with
    | none => ⟨mag, ovf, ndig, c :: cs⟩
    | some d =>
      if d < base then
        scanDigits base (mag * base + d) (ovf || decide (mag * base + d > mMax)) (ndig + 1) cs
      else ⟨mag, ovf, ndig, c :: cs⟩

/-- `(2^32 − mag) mod 2^32` for a negative literal, `mag` otherwise (R165, R173). -/
def signedValue (neg : Bool) (mag : Nat) : Word :=
  if neg then BitVec.ofNat 32 (2 ^ 32 - mag) else BitVec.ofNat 32 mag

/-- How a finished scan ends: MalformedNumber before NumberOutOfRange (R165, R329). -/
def scanResult (neg : Bool) (r : DigitScan) : Operand :=
  if r.ndig = 0 ∨ r.rest ≠ [] then .malformed
  else if r.ovf then .outOfRange
  else .value (signedValue neg r.mag)

/-- `ParseOperand` (R165). -/
def parseOperand (t : List Byte) : Operand :=
  let (neg, u) := splitSign t
  let (base, ds) := detectBase u
  scanResult neg (scanDigits base 0 false 0 ds)

/-- The digit loop with "a 32-bit accumulator with the sticky `ovf` bit" (R166): the magnitude wraps. -/
def scanDigitsWrapped (base : Nat) (mag : Word) (ovf : Bool) (ndig : Nat) : List Byte → DigitScan
  | [] => ⟨mag.toNat, ovf, ndig, []⟩
  | c :: cs =>
    match digitVal c with
    | none => ⟨mag.toNat, ovf, ndig, c :: cs⟩
    | some d =>
      if d < base then
        scanDigitsWrapped base (mag * BitVec.ofNat 32 base + BitVec.ofNat 32 d)
          (ovf || decide (mag.toNat * base + d > 4294967295)) (ndig + 1) cs
      else ⟨mag.toNat, ovf, ndig, c :: cs⟩

/-- `ParseOperand` as a hardware implementation may do it (R166). -/
def parseOperandWrapped (t : List Byte) : Operand :=
  let (neg, u) := splitSign t
  let (base, ds) := detectBase u
  scanResult neg (scanDigitsWrapped base 0 false 0 ds)

end Sys2Proof
end

