-- ==== Sys2Proof/Machine/Tokenizer.lean ====
section
/-! DEFINITION. The first two stages of CompileLine: Comment Stripper and tokenizer (40_comment_stripper_tokenizer.md
R120 to R129). Neither can fail. Both are pure functions of the bytes of the line (00_scope.md R14). -/

namespace Sys2Proof

/-- `COMMENT_CHARS`: 0x23 and 0x3B (R10, R120). -/
def isComment (c : Byte) : Bool := c = 0x23 || c = 0x3B

/-- `WS`: 0x20, 0x09, 0x0A, 0x0B, 0x0C, 0x0D (R10, R123, decision D5). -/
def isSpace (c : Byte) : Bool :=
  c = 0x20 || c = 0x09 || c = 0x0A || c = 0x0B || c = 0x0C || c = 0x0D

/-- `StripComment`: the index of the first comment character, or the line's length (R120). -/
def effLen : List Byte → Nat
  | [] => 0
  | c :: cs => if isComment c then 0 else effLen cs + 1

/-- The line as the tokenizer sees it, `LINE[0 .. EFF_LEN)`. -/
def strip (line : List Byte) : List Byte := line.take (effLen line)

/-- The scan of `Tokenize` from index `a` on; `open?` is the start of the token being read, if there is one (R123). -/
def scanTokens (a : Nat) (open? : Option Nat) : List Byte → List Span
  | [] =>
    match open? with
    | none => []
    | some s => [⟨s, a - s⟩]
  | c :: cs =>
    match isSpace c, open? with
    | true, none => scanTokens (a + 1) none cs
    | true, some s => ⟨s, a - s⟩ :: scanTokens (a + 1) none cs
    | false, none => scanTokens (a + 1) (some a) cs
    | false, some s => scanTokens (a + 1) (some s) cs

/-- The places of all tokens of a line, in order: `Tokenize` after `StripComment` (R123, R122). -/
def tokens (line : List Byte) : List Span := scanTokens 0 none (strip line)

/-- The bytes at a place, `LINE[s .. s + n)` (R12). -/
def slice (line : List Byte) (p : Span) : List Byte := (line.drop p.start).take p.len

end Sys2Proof
end

