-- ==== Sys2Proof/Syntax.lean ====
section
/-! DEFINITION. The sixteen instructions (30_encoding.md R85), one constructor per row of spec/opcode_table.json, each
with the operand of its source line. Every mnemonic may be written with or without an operand (R94), so every
constructor carries one. `end` is a word of Lean, so its constructor is named `endProgram`. -/

namespace Sys2Proof

/-- An instruction as a line of source text gives it: the resolved mnemonic and the operand token's form. -/
inductive Instr where
  | nop (opd : Operand)
  | load (opd : Operand)
  | dload (opd : Operand)
  | store (opd : Operand)
  | add (opd : Operand)
  | sub (opd : Operand)
  | mult (opd : Operand)
  | div (opd : Operand)
  | jump (opd : Operand)
  | jge (opd : Operand)
  | jgt (opd : Operand)
  | jle (opd : Operand)
  | jlt (opd : Operand)
  | jeq (opd : Operand)
  | jne (opd : Operand)
  | endProgram (opd : Operand)
  deriving DecidableEq, Repr

end Sys2Proof
end

