-- ==== Sys2Proof/WellFormed.lean ====
section
/-! DEFINITION. Well-formed instructions: those whose operand is just what their class encodes (30_encoding.md R83,
R87, R96). A wider operand, a missing one, one too many or one the parser turns away is still an instruction the
machine takes (R94, R195); it is only not the one that its record decodes back to. -/

namespace Sys2Proof

/-- The operand is written and lies below `bound`. -/
def Operand.fits (bound : Nat) : Operand → Bool
  | .value v => v.toNat < bound
  | .absent | .malformed | .outOfRange => false

/-- No operand in the zero-operand class, 0 to 15 in the register class, 0 to 255 in the address class (R83). -/
def Instr.wf : Instr → Bool
  | .nop opd | .endProgram opd => opd = .absent
  | .load opd | .store opd | .add opd | .sub opd | .mult opd | .div opd => opd.fits 16
  | .dload opd | .jump opd | .jge opd | .jgt opd | .jle opd | .jlt opd | .jeq opd | .jne opd => opd.fits 256

end Sys2Proof
end

