-- ==== Sys2Proof/Decode.lean ====
section
/-! DEFINITION. ASMCORE's decoders and encoders: the mnemonic decoder (41_mnemonic_decoder.md), the reading of a
whole line as an instruction (47_line_compiler.md R260, R268), the record encoder `Encode` (43_instruction_encoder.md
R190), its inverse on records (30_encoding.md R87, R88), and the canonical spelling of an instruction (R96). -/

namespace Sys2Proof

/-! ### The mnemonic table -/

/-- `MNEMONIC_NAME[k]` (41_mnemonic_decoder.md R140). -/
def mnemonicName (k : OpOrdinal) : List Byte :=
  match k.toNat with
  | 0 => [0x6E, 0x6F, 0x70]
  | 1 => [0x6C, 0x6F, 0x61, 0x64]
  | 2 => [0x64, 0x6C, 0x6F, 0x61, 0x64]
  | 3 => [0x73, 0x74, 0x6F, 0x72, 0x65]
  | 4 => [0x61, 0x64, 0x64]
  | 5 => [0x73, 0x75, 0x62]
  | 6 => [0x6D, 0x75, 0x6C, 0x74]
  | 7 => [0x64, 0x69, 0x76]
  | 8 => [0x6A, 0x75, 0x6D, 0x70]
  | 9 => [0x6A, 0x67, 0x65]
  | 10 => [0x6A, 0x67, 0x74]
  | 11 => [0x6A, 0x6C, 0x65]
  | 12 => [0x6A, 0x6C, 0x74]
  | 13 => [0x6A, 0x65, 0x71]
  | 14 => [0x6A, 0x6E, 0x65]
  | _ => [0x65, 0x6E, 0x64]

/-- `Fold` on one byte: ASCII `A` to `Z` to lower case, every other byte unchanged (R141). -/
def fold (c : Byte) : Byte := if 0x41 ≤ c.toNat ∧ c.toNat ≤ 0x5A then c + 0x20 else c

/-- The indices of the sixteen entries, in the order `LookupMnemonic` tries them (R143). -/
def ordinals : List OpOrdinal := [0, 1, 2, 3, 4, 5, 6, 7, 8, 9, 10, 11, 12, 13, 14, 15]

/-- `LookupMnemonic` on a token: the ordinal of the entry it equals after folding, none on a miss (R143). -/
def lookupMnemonic (t : List Byte) : Option OpOrdinal :=
  ordinals.find? fun k => t.map fold = mnemonicName k

/-- `WIDTH_CLASS[k]`, the operand width in bits of an ordinal (R147). -/
def widthClass (k : OpOrdinal) : Nat :=
  match k.toNat with
  | 0 => 0
  | 1 => 4
  | 2 => 8
  | 3 => 4
  | 4 => 4
  | 5 => 4
  | 6 => 4
  | 7 => 4
  | 8 => 8
  | 9 => 8
  | 10 => 8
  | 11 => 8
  | 12 => 8
  | 13 => 8
  | 14 => 8
  | _ => 0

/-! ### Instructions and ordinals -/

/-- The instruction of an ordinal (30_encoding.md R85). -/
def Instr.ofOrdinal (k : OpOrdinal) (opd : Operand) : Instr :=
  match k.toNat with
  | 0 => .nop opd
  | 1 => .load opd
  | 2 => .dload opd
  | 3 => .store opd
  | 4 => .add opd
  | 5 => .sub opd
  | 6 => .mult opd
  | 7 => .div opd
  | 8 => .jump opd
  | 9 => .jge opd
  | 10 => .jgt opd
  | 11 => .jle opd
  | 12 => .jlt opd
  | 13 => .jeq opd
  | 14 => .jne opd
  | _ => .endProgram opd

/-- The ordinal of an instruction (R85). -/
def Instr.ordinal : Instr → OpOrdinal
  | .nop _ => 0
  | .load _ => 1
  | .dload _ => 2
  | .store _ => 3
  | .add _ => 4
  | .sub _ => 5
  | .mult _ => 6
  | .div _ => 7
  | .jump _ => 8
  | .jge _ => 9
  | .jgt _ => 10
  | .jle _ => 11
  | .jlt _ => 12
  | .jeq _ => 13
  | .jne _ => 14
  | .endProgram _ => 15

/-- The operand of an instruction. -/
def Instr.operand : Instr → Operand
  | .nop o | .load o | .dload o | .store o | .add o | .sub o | .mult o | .div o => o
  | .jump o | .jge o | .jgt o | .jle o | .jlt o | .jeq o | .jne o | .endProgram o => o

/-! ### A line as an instruction -/

/-- What a line is to the Line Compiler (47_line_compiler.md R268): blank, led by a token that names no mnemonic,
or an instruction. -/
inductive LineForm where
  | blank
  | unknown
  | instr (i : Instr)
  deriving DecidableEq, Repr

/-- A line read as an instruction, given the places of its tokens: the first is the mnemonic, the second the
operand, the others are not looked at (R263 to R266); the mnemonic is resolved first (R265). -/
def decodeTokens (line : List Byte) : List Span → LineForm
  | [] => .blank
  | [t0] =>
    match lookupMnemonic (slice line t0) with
    | none => .unknown
    | some k => .instr (Instr.ofOrdinal k .absent)
  | t0 :: t1 :: _ =>
    match lookupMnemonic (slice line t0) with
    | none => .unknown
    | some k => .instr (Instr.ofOrdinal k (parseOperand (slice line t1)))

/-- A line read as an instruction (R260, steps 1 to 6). -/
def decodeLine (line : List Byte) : LineForm := decodeTokens line (tokens line)

/-! ### Records -/

/-- `Encode` (43_instruction_encoder.md R190): the two bytes of a record, byte 0 first. -/
def encodeRec (k : OpOrdinal) (v : Word) : Byte × Byte :=
  let lo : BitVec 4 := if 4 ≤ widthClass k then v.extractLsb' 0 4 else 0
  let hi : BitVec 4 := if widthClass k = 8 then v.extractLsb' 4 4 else 0
  (k.zeroExtend 8, hi ++ lo)

/-- Why a record has no meaning: ASMCORE never produces it (30_encoding.md R88, decision D20). -/
inductive Reject where
  /-- fewer than the two bytes of a record are left (R82) -/
  | truncated
  /-- byte 0 is 0x10 or more (R88 a) -/
  | opcodeOutOfRange
  /-- a zero-operand record with byte 1 other than 0x00 (R88 b) -/
  | zeroOperandByte
  /-- a register-class record with byte 1 of 0x10 or more (R88 c) -/
  | registerHighNibble
  deriving DecidableEq, Repr

/-- The operand that byte 1 of a record of an ordinal holds, or why it can hold none (R87, R88). -/
def decodeOperand (k : OpOrdinal) (b1 : Byte) : Except Reject Operand :=
  match widthClass k with
  | 0 => if b1 = 0 then .ok .absent else .error .zeroOperandByte
  | 4 =>
    if b1.extractLsb' 4 4 = 0 then .ok (.value ((b1.extractLsb' 0 4).zeroExtend 32))
    else .error .registerHighNibble
  | _ => .ok (.value (b1.zeroExtend 32))

/-- The record decoder: the instruction of the first two bytes, and the bytes after them (R82, R87, R88). -/
def decode : List Byte → Except Reject (Instr × List Byte)
  | b0 :: b1 :: rest =>
    if b0.extractLsb' 4 4 = 0 then
      match decodeOperand (b0.extractLsb' 0 4) b1 with
      | .ok opd => .ok (Instr.ofOrdinal (b0.extractLsb' 0 4) opd, rest)
      | .error e => .error e
    else .error .opcodeOutOfRange
  | _ => .error .truncated

/-- The 32-bit value an operand hands to the encoder: `ABSENT_OPERAND` when the line has one token (R264), none when
the parser turned the token away (R267: "On failure, return failure with no record"). -/
def Operand.bits? : Operand → Option Word
  | .absent => some absentOperand
  | .value v => some v
  | .malformed | .outOfRange => none

/-- The record of an instruction, byte 0 first; none when its line fails. -/
def encode (i : Instr) : Option (List Byte) :=
  match i.operand.bits? with
  | some v => some [(encodeRec i.ordinal v).1, (encodeRec i.ordinal v).2]
  | none => none

/-- The record decoder on a row's word of spec/opcode_table.json, `W = byte0 × 256 + byte1` (R81): byte 0 of the
record is the high half of the table's 16-bit word. -/
def decodeTableWord (nbits w : Nat) : Option Instr :=
  if nbits ≤ 16 ∧ w < 65536 then
    match decode [BitVec.ofNat 8 (w / 256), BitVec.ofNat 8 w] with
    | .ok (i, _) => some i
    | .error _ => none
  else none

/-! ### Spelling -/

/-- Decimal digits of `n` in front of `acc`, at most `fuel` of them. -/
def decimalDigits : Nat → Nat → List Byte → List Byte
  | 0, _, acc => acc
  | fuel + 1, n, acc =>
    let acc' := BitVec.ofNat 8 (0x30 + n % 10) :: acc
    if n / 10 = 0 then acc' else decimalDigits fuel (n / 10) acc'

/-- A natural number in decimal, without sign or leading zero. -/
def decimal (n : Nat) : List Byte := decimalDigits (n + 1) n []

/-- The operand part of a canonical line (30_encoding.md R96): one space and the value in decimal. The two forms
the parser turns away have no canonical spelling; a sign alone (R167) and 4294967296 (R168) stand for them. -/
def Operand.spell : Operand → List Byte
  | .absent => []
  | .value v => 0x20 :: decimal v.toNat
  | .malformed => [0x20, 0x2D]
  | .outOfRange => 0x20 :: decimal 4294967296

/-- The canonical line of an instruction: the lower-case mnemonic and its operand, nothing else (R96). -/
def Instr.spell (i : Instr) : List Byte := mnemonicName i.ordinal ++ i.operand.spell

end Sys2Proof
end

