-- ==== Sys2Proof/Config.lean ====
section
/-! DEFINITION. What the spec leaves to the build or leaves without a value. Every `opaque` constant here has no
body: no proof can learn what it is, so a statement about the model holds for every value of it. -/

namespace Sys2Proof

/-- `LINE_MAX` less one. `LINE_MAX` is an OPEN parameter, "any integer ≥ 1" (00_scope.md R10, decision D11); log entry 3. -/
opaque Config.lineMaxLessOne : Nat

/-- `LINE_MAX`, the longest piece of a line the HOST delivers, in bytes (R10, 48_program_driver.md R292). -/
def Config.lineMax : Nat := Config.lineMaxLessOne + 1

/-- `L = ceil(log2(LINE_MAX + 1))`, the width of an index into the line buffer (10_state.md R22). -/
def Config.indexBits : Nat := Nat.log2 Config.lineMax + 1

/-- `STATUS.err_tokidx` after a line that succeeds: no value is stated (10_state.md R24); log entry 8. -/
opaque Config.freeErrTokIdx : Nat → Bool

/-- `STATUS.err_tok_s` after a line that succeeds: no value is stated (10_state.md R24); log entry 8. -/
opaque Config.freeErrTokS : Nat → Nat

/-- `STATUS.err_tok_n` after a line that succeeds: no value is stated (10_state.md R24); log entry 8. -/
opaque Config.freeErrTokN : Nat → Nat

/-- OUT after a fatal, process-level error: "no partial output is guaranteed" (48_program_driver.md R301); log entry 17. -/
opaque Config.freeOut : Nat → List Byte

/-- Which of the two a fatal error reports when neither the input nor the output opens: true for the output. No order of the
two openings is stated (48_program_driver.md R299); log entry 27. -/
opaque Config.freeOutputFirst : Nat → Bool

/-- The report of a usage failure, by program name and arguments: its wording is in no source (48_program_driver.md R299,
00_scope.md R5); log entry 27. -/
opaque Config.usageReport : List Byte → List (List Byte) → List Byte

/-- The report of an unreadable input; log entry 27. -/
opaque Config.inputReport : List Byte → List (List Byte) → List Byte

/-- The report of an unwritable output; log entry 27. -/
opaque Config.outputReport : List Byte → List (List Byte) → List Byte

/-- The wording of a diagnostic before the token it names, by error code: in no source (91_not_in_source.md N6); log entry 23. -/
opaque Config.messageBefore : BitVec 2 → List Byte

/-- The wording of a diagnostic after the token it names, by error code; log entry 23. -/
opaque Config.messageAfter : BitVec 2 → List Byte

end Sys2Proof
end

