-- ==== Sys2Proof/Machine/State.lean ====
section
/-! DEFINITION. The state of ASMCORE and of its HOST, as plain data (10_state.md R22, R24, R29), the reasons a step
can stop, and the state after reset (70_reset_and_hazards.md R361, R362). -/

namespace Sys2Proof.Machine

/-- A byte memory: (address, byte) pairs with rising addresses. An address that is not listed holds no value: the line
buffer's bytes are "unspecified" until the HOST writes them (R361); log entry 5. -/
abbrev Memory := List Host.Cell

/-- The three line-level conditions and "none", by the codes of 60_exceptions.md R321. -/
inductive ErrCode where
  /-- 0 `ERR_NONE` -/
  | none
  /-- 1 `ERR_UNKNOWN_MNEMONIC` -/
  | unknownMnemonic
  /-- 2 `ERR_MALFORMED_NUMBER` -/
  | malformedNumber
  /-- 3 `ERR_NUMBER_OUT_OF_RANGE` -/
  | numberOutOfRange
  deriving DecidableEq, Repr

/-- The fields of the STATUS word, bit 0 upward (10_state.md R24); `Status.word` of Flags.lean gives the bits. -/
structure Status where
  done      : Bool
  ok        : Bool
  emit      : Bool
  err       : ErrCode
  errTokIdx : Bool
  errTokS   : Nat
  errTokN   : Nat
  deriving DecidableEq, Repr

/-- The registers of CORE (10_state.md R22). -/
structure CoreRegs where
  line        : Memory
  lineLen     : Nat
  effLen      : Nat
  ntok        : BitVec 2
  tok0        : Span
  tok1        : Span
  hit         : Bool
  opc         : OpOrdinal
  opnd        : Word
  opndPresent : Bool
  pstat       : BitVec 2
  rec0        : Byte
  rec1        : Byte
  status      : Status
  deriving DecidableEq, Repr

/-- One entry of DIAG: line number, error code, offending token as the user wrote it (R29, 48_program_driver.md R295). -/
structure Diagnostic where
  lineNo : Nat
  err    : ErrCode
  token  : List Byte
  deriving DecidableEq, Repr

/-- The fatal, process-level errors (60_exceptions.md R320, 48_program_driver.md R299). -/
inductive FatalCause where
  /-- "bad CLI arguments": a missing input path, or a missing argument to `-o`; a usage failure -/
  | usage
  /-- "input file cannot be opened" -/
  | unreadableInput
  /-- "output file cannot be opened" -/
  | unwritableOutput
  deriving DecidableEq, Repr

/-- The state of the HOST (10_state.md R29) with what its start-up reads (48_program_driver.md R298, R299). -/
structure HostData where
  /-- `LINE_NO` (R293) -/
  lineNo     : Nat
  /-- `FILE_NAME` -/
  fileName   : List Byte
  /-- `PROG_NAME` -/
  progName   : List Byte
  /-- `OUT`, the output stream; offset `a` holds `out[a]` (20_memory.md R50) -/
  out        : List Byte
  /-- `DIAG` -/
  diag       : List Diagnostic
  /-- `EXIT`, the process exit status (R300, R301) -/
  exit       : Fin 2
  /-- the fatal error "reported directly to the user"; none when none has been (R299); log entry 27 -/
  report     : Option FatalCause
  /-- the output path (R298) -/
  outPath    : List Byte
  /-- the source text not yet delivered (R290) -/
  input      : List Byte
  /-- the input and output handles are held (R302) -/
  handles    : Bool
  /-- the command line's arguments (R298) -/
  args       : List (List Byte)
  /-- the bytes the input path opens to; none when it cannot be read (R299) -/
  sourceFile : Option (List Byte)
  /-- the output path can be opened for writing (R299) -/
  outOpens   : Bool
  deriving DecidableEq, Repr

/-- Whose step is next: the fixed alternation of HOST and CORE (00_scope.md R9, 20_memory.md R61); log entry 2. -/
inductive Turn where
  /-- HOST: read the command line and open the files (R365) -/
  | startUp
  /-- HOST: deliver the next line and assert `start` (R366), or end the run -/
  | deliver
  /-- CORE: CompileLine (R260) -/
  | compile
  /-- HOST: append the record or write the diagnostic (R294, R295) -/
  | act
  /-- the run is over (R302, R367) -/
  | ended
  deriving DecidableEq, Repr

/-- The whole machine. -/
structure State where
  core  : CoreRegs
  host  : HostData
  turn  : Turn
  /-- how many free values have been drawn; the model's own field (log entry 8) -/
  draws : Nat
  deriving DecidableEq, Repr

/-- What stops the machine. -/
inductive Fault where
  /-- CompileLine, or the HOST naming a token, reads a byte of LINE that nobody has written, which no line the HOST
  delivers makes happen (R51). Safe: the model stops where the hardware would read an unspecified byte. -/
  | lineByteUnwritten
  deriving DecidableEq, Repr

/-- What the model gives no step to. -/
inductive Refusal where
  /-- exec's arm of an instruction that has no meaning yet. Safe: nothing is claimed of it. -/
  | notModelled (mnemonic : String)
  /-- CompileLine on a line that holds the byte 0x00: "a model refuses it (no step)" (20_memory.md R52). Safe. -/
  | zeroByteInLine
  /-- The start-up step on a command line the source gives no meaning (91_not_in_source.md N19). Safe. -/
  | commandLineUnstated
  deriving DecidableEq, Repr

/-- STATUS after reset: every field 0 (R361). -/
def Status.reset : Status :=
  { done := false, ok := false, emit := false, err := .none, errTokIdx := false, errTokS := 0, errTokN := 0 }

/-- The registers of CORE after reset (R361); LINE is unspecified and lists nothing. -/
def CoreRegs.reset : CoreRegs :=
  { line := [], lineLen := 0, effLen := 0, ntok := 0, tok0 := ⟨0, 0⟩, tok1 := ⟨0, 0⟩, hit := false, opc := 0,
    opnd := 0, opndPresent := false, pstat := 0, rec0 := 0, rec1 := 0, status := Status.reset }

/-- The HOST before a run (R362), with no command line given yet (log entry 16). -/
def HostData.reset : HostData :=
  { lineNo := 0, fileName := [], progName := [], out := [], diag := [], exit := 0, report := none, outPath := [], input := [],
    handles := false, args := [], sourceFile := none, outOpens := false }

/-- The machine right after reset. -/
def State.reset : State :=
  { core := CoreRegs.reset, host := HostData.reset, turn := .startUp, draws := 0 }

end Sys2Proof.Machine
end

