-- ==== Sys2Proof/Machine/Flags.lean ====
section
/-! DEFINITION. The flags of ASMCORE: the fields of STATUS after a line that succeeds and after one that fails
(10_state.md R24, 47_line_compiler.md R260, 60_exceptions.md R326), the codes and the packed word. -/

namespace Sys2Proof.Machine

/-- The code of a condition in `STATUS.err` (60_exceptions.md R321). -/
def ErrCode.code : ErrCode → BitVec 2
  | .none => 0
  | .unknownMnemonic => 1
  | .malformedNumber => 2
  | .numberOutOfRange => 3

/-- STATUS after a line that succeeds, with or without a record (R260, R263). The three fields that name an offending
token are given no value there, so they are free values that fit their width (log entry 8). -/
def Status.success (emit : Bool) (draw : Nat) : Status :=
  { done := true, ok := true, emit := emit, err := .none,
    errTokIdx := Config.freeErrTokIdx draw,
    errTokS := Config.freeErrTokS draw % 2 ^ Config.indexBits,
    errTokN := Config.freeErrTokN draw % 2 ^ Config.indexBits }

/-- STATUS after a raised condition: `(done = 1, ok = 0, emit = 0, err = code of C, err_tok* = tok)` (R326, R327).
`second` says that the offending token is token 1. -/
def Status.failure (c : ErrCode) (second : Bool) (tok : Span) : Status :=
  { done := true, ok := false, emit := false, err := c,
    errTokIdx := second, errTokS := tok.start, errTokN := tok.len }

/-- STATUS after `start`: `done` is cleared, nothing else (10_state.md R37). -/
def Status.started (st : Status) : Status := { st with done := false }

/-- STATUS as one word, fields from bit 0 upward, with index fields of `L` bits (10_state.md R24). -/
def Status.word (L : Nat) (st : Status) : Nat :=
  st.done.toNat + 2 * st.ok.toNat + 4 * st.emit.toNat + 8 * st.err.code.toNat + 32 * st.errTokIdx.toNat
    + 64 * st.errTokS + 2 ^ (6 + L) * st.errTokN

/-- The legal combinations of (`ok`, `emit`, `err`) after a CompileLine (10_state.md R24). -/
def Status.legal (st : Status) : Bool :=
  match st.ok, st.emit, st.err with
  | true, _, .none => true
  | false, false, .unknownMnemonic | false, false, .malformedNumber | false, false, .numberOutOfRange => true
  | _, _, _ => false

end Sys2Proof.Machine
end

