-- ==== Sys2Proof/Machine/Ops.lean ====
section
/-! DEFINITION. The named operations every meaning is made of: reads and writes of the line buffer, the register
writes of CompileLine's stages, taking a line-level condition (`raise`), and handing a record over. -/

namespace Sys2Proof.Machine

/-! ### The line buffer -/

/-- `MemRead(LINE, a, 1)` (00_scope.md R13); no value where nobody has written. -/
def Memory.read (m : Memory) (a : Nat) : Option Byte :=
  match m with
  | [] => none
  | (a', b) :: rest => if a = a' then some b else Memory.read rest a

/-- A byte written at an address, the list kept in rising order. -/
def Memory.write (m : Memory) (a : Nat) (b : Byte) : Memory :=
  match m with
  | [] => [(a, b)]
  | (a', b') :: rest =>
    if a < a' then (a, b) :: (a', b') :: rest
    else if a = a' then (a, b) :: rest
    else (a', b') :: Memory.write rest a b

/-- Consecutive bytes written from an address upward. -/
def Memory.writeBytes (m : Memory) (a : Nat) : List Byte → Memory
  | [] => m
  | b :: bs => Memory.writeBytes (Memory.write m a b) (a + 1) bs

/-- `n` consecutive bytes from an address upward; none when one of them has no value. -/
def Memory.readBytes (m : Memory) (a : Nat) : Nat → Option (List Byte)
  | 0 => some []
  | n + 1 =>
    match Memory.read m a, Memory.readBytes m (a + 1) n with
    | some b, some bs => some (b :: bs)
    | _, _ => none

/-- The canonical form: addresses strictly rising. -/
abbrev Memory.wf (m : Memory) : Prop := List.Pairwise (fun c d : Host.Cell => c.1 < d.1) m

/-- The delivered line, `LINE[0 .. LINE_LEN)` (20_memory.md R51). -/
def CoreRegs.lineBytes (r : CoreRegs) : Option (List Byte) := Memory.readBytes r.line 0 r.lineLen

/-- A line in place: its bytes in LINE, its length in LINE_LEN, `start` asserted (70_reset_and_hazards.md R366). -/
def CoreRegs.present (r : CoreRegs) (bytes : List Byte) : CoreRegs :=
  { r with line := Memory.writeBytes r.line 0 bytes, lineLen := bytes.length, status := r.status.started }

/-! ### The register writes of CompileLine -/

/-- The clearing of the transient registers, first line of CompileLine (47_line_compiler.md R260, R261). -/
def CoreRegs.clearTransients (r : CoreRegs) : CoreRegs :=
  { r with opnd := absentOperand, opndPresent := false, pstat := 0, hit := false }

/-- The register `StripComment` writes (R120). -/
def CoreRegs.putEffLen (r : CoreRegs) (n : Nat) : CoreRegs := { r with effLen := n }

/-- The registers `Tokenize` writes (R123): NTOK saturates at 2 and only the first two tokens are recorded. -/
def CoreRegs.putTokens (r : CoreRegs) : List Span → CoreRegs
  | [] => { r with ntok := 0 }
  | [t0] => { r with ntok := 1, tok0 := t0 }
  | t0 :: t1 :: _ => { r with ntok := 2, tok0 := t0, tok1 := t1 }

/-- The registers `LookupMnemonic` writes on a match (R143). On a miss HIT is 0, as the clearing left it, and OPC is
not written. -/
def CoreRegs.putHit (r : CoreRegs) (k : OpOrdinal) : CoreRegs := { r with hit := true, opc := k }

/-- The registers a parsed operand writes: `PSTAT <- 0`, OPND (42_operand_parser.md R165), and OPND_PRESENT (R260). -/
def CoreRegs.putOperand (r : CoreRegs) (v : Word) : CoreRegs :=
  { r with opnd := v, opndPresent := true, pstat := 0 }

/-- OPND of a one-token line (R264, 10_state.md R30). -/
def CoreRegs.putAbsent (r : CoreRegs) : CoreRegs := { r with opnd := absentOperand, opndPresent := false }

/-- PSTAT after a failed parse; OPND is not written (R165, R169). -/
def CoreRegs.putPstat (r : CoreRegs) (p : BitVec 2) : CoreRegs := { r with pstat := p }

/-- The registers `Encode` writes (43_instruction_encoder.md R190). -/
def CoreRegs.putRecord (r : CoreRegs) (rec : Byte × Byte) : CoreRegs := { r with rec0 := rec.1, rec1 := rec.2 }

/-- STATUS, written at the end of CompileLine (10_state.md R24). -/
def CoreRegs.putStatus (r : CoreRegs) (st : Status) : CoreRegs := { r with status := st }

/-- What StripComment and Tokenize leave after the clearing (R260, steps 1 and 2; R262). -/
def CoreRegs.scanned (r : CoreRegs) (line : List Byte) : CoreRegs :=
  (r.clearTransients.putEffLen (Sys2Proof.effLen line)).putTokens (tokens line)

/-! ### How a CompileLine ends -/

/-- Taking a line-level condition: `raise C(tok)` (60_exceptions.md R326). CompileLine stops, STATUS says which
condition and which token, nothing else is saved or changed, and control goes back to the HOST. There is no return
from it and nothing to restore (R331): the HOST's next delivery goes on. -/
def raise (c : ErrCode) (second : Bool) (s : State) : State :=
  { s with
    core := s.core.putStatus (Status.failure c second (if second then s.core.tok1 else s.core.tok0))
    turn := .act }

/-- The end of a line that gives a record: REC0, REC1 and `STATUS <- (done=1, ok=1, emit=1, err=0)` (R260). -/
def emitRecord (rec : Byte × Byte) (s : State) : State :=
  { s with
    core := (s.core.putRecord rec).putStatus (Status.success true s.draws)
    turn := .act
    draws := s.draws + 1 }

/-- The end of a blank line: `STATUS <- (done=1, ok=1, emit=0, err=0)` (R260 step 3, R263). -/
def finishBlank (s : State) : State :=
  { s with
    core := s.core.putStatus (Status.success false s.draws)
    turn := .act
    draws := s.draws + 1 }

/-- The part of CompileLine an instruction's rule describes, for the ordinal `k` (44_zero_operand_instructions.md,
45_register_class_instructions.md, 46_address_class_instructions.md): the operand's registers are written, then the
record is encoded and handed over, or the parser's condition is raised with token 1. -/
def assembleInstr (k : OpOrdinal) (opd : Operand) (s : State) : State :=
  match opd with
  | .absent => emitRecord (encodeRec k absentOperand) { s with core := s.core.putAbsent }
  | .value v => emitRecord (encodeRec k v) { s with core := s.core.putOperand v }
  | .malformed => raise .malformedNumber true { s with core := s.core.putPstat 1 }
  | .outOfRange => raise .numberOutOfRange true { s with core := s.core.putPstat 2 }

end Sys2Proof.Machine
end

