-- ==== Sys2Proof/Machine/Driver.lean ====
section
/-! DEFINITION. The steps of the HOST, the Program Driver (48_program_driver.md): start-up, delivering a line, acting
on STATUS, ending the run; and what comes to the machine from outside. -/

namespace Sys2Proof.Machine

/-! ### Lines -/

/-- The next piece of the source text and the text after it: up to and with the terminator 0x0A, at most `room` bytes
(R291, R292; log entries 4 and 25). -/
def takePiece (room : Nat) (text : List Byte) : List Byte × List Byte :=
  match room, text with
  | 0, cs => ([], cs)
  | _ + 1, [] => ([], [])
  | room + 1, c :: cs =>
    if c = 0x0A then ([c], cs)
    else (c :: (takePiece room cs).1, (takePiece room cs).2)

/-! ### Start-up -/

/-- What a command line asks for (R298, R299). -/
inductive Invocation where
  /-- a missing input path, or a missing argument to `-o`: usage failure -/
  | usage
  /-- assemble the input path to the output path -/
  | run (outPath inPath : List Byte)
  /-- a form whose meaning is not stated (91_not_in_source.md N19) -/
  | unstated
  deriving DecidableEq, Repr

/-- The option `-o`. -/
def optionO : List Byte := [0x2D, 0x6F]

/-- The default output path, `a.out` (R298). -/
def defaultOutPath : List Byte := [0x61, 0x2E, 0x6F, 0x75, 0x74]

/-- A word of the command line that is a path: one that does not begin with `-` (log entry 15). -/
def isPath (w : List Byte) : Bool := w.head? ≠ some 0x2D

/-- `assemble [-o <output-path>] <input-path>` (R298, R299). An input path equal to the output path is unstated (N19). -/
def parseArgs : List (List Byte) → Invocation
  | [] => .usage
  | [w] =>
    if w = optionO then .usage
    else if isPath w ∧ w ≠ defaultOutPath then .run defaultOutPath w
    else .unstated
  | [w, o] => if w = optionO ∧ isPath o then .usage else .unstated
  | [w, o, i] => if w = optionO ∧ isPath o ∧ isPath i ∧ i ≠ o then .run o i else .unstated
  | _ => .unstated

/-- A fatal, process-level error: it is "reported directly to the user", the run ends at once with exit status 1, and "no
partial output is guaranteed" (R299, R301), so OUT is a free value (log entries 17 and 27). -/
def fatalExit (cause : FatalCause) (s : State) : State :=
  { s with
    host := { s.host with exit := 1, report := some cause, out := Config.freeOut s.draws, handles := false }
    turn := .ended
    draws := s.draws + 1 }

/-- The loop is entered: handles held, OUT and DIAG empty, LINE_NO 0, nothing reported, the names recorded (70_reset_and_hazards.md
R365, R362; R300). -/
def enterLoop (outPath inPath text : List Byte) (s : State) : State :=
  { s with
    host := { s.host with
      lineNo := 0, fileName := inPath, out := [], diag := [], exit := 0, report := none, outPath := outPath, input := text,
      handles := true }
    turn := .deliver }

/-- Opening the input for reading and the output for writing (R365): the source text, or which of them fails (R299). Which
one is reported when both fail is a free value (log entry 27). -/
def openFiles (s : State) : Except FatalCause (List Byte) :=
  match s.host.sourceFile, s.host.outOpens with
  | some text, true => .ok text
  | none, true => .error .unreadableInput
  | some _, false => .error .unwritableOutput
  | none, false => .error (if Config.freeOutputFirst s.draws then .unwritableOutput else .unreadableInput)

/-- The HOST's start-up step (R365): the command line, then the input, then the output. -/
def startUp (s : State) : Host.Outcome State Fault Refusal :=
  match parseArgs s.host.args with
  | .usage => .next (fatalExit .usage s)
  | .unstated => .refused .commandLineUnstated
  | .run outPath inPath =>
    match openFiles s with
    | .error cause => .next (fatalExit cause s)
    | .ok text => .next (enterLoop outPath inPath text s)

/-! ### The loop -/

/-- A line delivered: counted (R293), written to LINE and LINE_LEN, `start` asserted (R366). -/
def deliverPiece (piece rest : List Byte) (s : State) : State :=
  { s with
    core := s.core.present piece
    host := { s.host with lineNo := s.host.lineNo + 1, input := rest }
    turn := .compile }

/-- The end of the run: exit status 0 whatever the lines did (R300), handles released (R302). -/
def finishRun (s : State) : State :=
  { s with
    host := { s.host with exit := 0, handles := false }
    turn := .ended }

/-- The HOST delivers the next line, or ends the run when no text is left (R296). -/
def deliver (s : State) : State :=
  match s.host.input with
  | [] => finishRun s
  | c :: cs =>
    deliverPiece (takePiece Config.lineMax (c :: cs)).1 (takePiece Config.lineMax (c :: cs)).2 s

/-- `MemWrite(OUT, |OUT|, 2, REC0 ‖ REC1)` when `emit = 1`, nothing otherwise (R294, R296). -/
def appendRecord (s : State) : State :=
  if s.core.status.emit then
    { s with host := { s.host with out := s.host.out ++ [s.core.rec0, s.core.rec1] } }
  else s

/-- The offending token's bytes, `LINE[err_tok_s .. err_tok_s + err_tok_n)` (R295). -/
def offendingToken (r : CoreRegs) : Option (List Byte) := Memory.readBytes r.line r.status.errTokS r.status.errTokN

/-- One more diagnostic (R295). -/
def appendDiagnostic (token : List Byte) (s : State) : State :=
  { s with host := { s.host with
      diag := s.host.diag ++ [{ lineNo := s.host.lineNo, err := s.core.status.err, token := token }] } }

/-- The HOST acts on STATUS: the record is appended when `emit = 1`, one diagnostic is written when `ok = 0`, and the
run goes on to the next line either way (R294, R295, R296). -/
def act (s : State) : Host.Outcome State Fault Refusal :=
  if s.core.status.ok then .next { appendRecord s with turn := .deliver }
  else
    match offendingToken s.core with
    | none => .fault .lineByteUnwritten
    | some token => .next { appendDiagnostic token (appendRecord s) with turn := .deliver }

/-! ### What the user is told -/

/-- The report of a fatal error, in words that no source gives (R299; log entry 27). -/
def fatalReport (h : HostData) : Option (List Byte) :=
  h.report.map fun
    | .usage => Config.usageReport h.progName h.args
    | .unreadableInput => Config.inputReport h.progName h.args
    | .unwritableOutput => Config.outputReport h.progName h.args

/-- A diagnostic's line: `<program-name>:<input-file-name>:<line-number>: <message>`, the message naming the offending
token; its other words are in no source (R295, N6; log entry 23). -/
def diagnosticLine (progName fileName : List Byte) (d : Diagnostic) : List Byte :=
  progName ++ [0x3A] ++ fileName ++ [0x3A] ++ decimal d.lineNo ++ [0x3A, 0x20]
    ++ Config.messageBefore d.err.code ++ d.token ++ Config.messageAfter d.err.code

/-- The lines on the error stream, one per failed line, in order (R295, 20_memory.md R61). -/
def errorStream (h : HostData) : List (List Byte) := h.diag.map (diagnosticLine h.progName h.fileName)

/-- All that a run tells its user: the report of a fatal error (R299), or the error stream (R295). -/
def userReports (h : HostData) : List (List Byte) :=
  match fatalReport h with
  | some text => [text]
  | none => errorStream h

/-! ### What comes from outside -/

/-- A run asked for from outside: the program's name, its arguments, what the input path opens to, whether the output
path opens (log entry 16). -/
def State.withInvocation (s : State) (progName : List Byte) (args : List (List Byte))
    (sourceFile : Option (List Byte)) (outOpens : Bool) : State :=
  { s with
    host := { s.host with progName := progName, args := args, sourceFile := sourceFile, outOpens := outOpens }
    turn := .startUp }

/-- A line in LINE with `start` asserted, as the HOST's delivery leaves it, so that CORE's step is next (R366). -/
def State.withLine (s : State) (bytes : List Byte) : State :=
  { s with core := s.core.present bytes, turn := .compile }

/-- A reset of CORE in the middle of a run (70_reset_and_hazards.md R364): its registers take their reset values, the
line in progress is lost, and the HOST's state stays (log entry 21). -/
def State.coreReset (s : State) : State :=
  { s with
    core := CoreRegs.reset
    turn :=
      match s.turn with
      | .compile | .act => .deliver
      | t => t }

end Sys2Proof.Machine
end

