-- ==== Sys2Proof/Machine/AddressClass.lean ====
section
/-! DEFINITION. The eight instructions of operand width 8 (46_address_class_instructions.md): byte 1 is the low 8 bits of the operand (R194).
Each meaning is what CompileLine does for a line that names the instruction, from the operand on; the record is
assembled, never executed (00_scope.md R7). -/

namespace Sys2Proof.Machine

/-- `dload`, ordinal 2 (R240). -/
def execDload (opd : Operand) (s : State) : Host.Outcome State Fault Refusal := .next (assembleInstr 2 opd s)

/-- `jump`, ordinal 8 (R241). -/
def execJump (opd : Operand) (s : State) : Host.Outcome State Fault Refusal := .next (assembleInstr 8 opd s)

/-- `jge`, ordinal 9 (R242). -/
def execJge (opd : Operand) (s : State) : Host.Outcome State Fault Refusal := .next (assembleInstr 9 opd s)

/-- `jgt`, ordinal 10 (R243). -/
def execJgt (opd : Operand) (s : State) : Host.Outcome State Fault Refusal := .next (assembleInstr 10 opd s)

/-- `jle`, ordinal 11 (R244). -/
def execJle (opd : Operand) (s : State) : Host.Outcome State Fault Refusal := .next (assembleInstr 11 opd s)

/-- `jlt`, ordinal 12 (R245). -/
def execJlt (opd : Operand) (s : State) : Host.Outcome State Fault Refusal := .next (assembleInstr 12 opd s)

/-- `jeq`, ordinal 13 (R246). -/
def execJeq (opd : Operand) (s : State) : Host.Outcome State Fault Refusal := .next (assembleInstr 13 opd s)

/-- `jne`, ordinal 14 (R247). -/
def execJne (opd : Operand) (s : State) : Host.Outcome State Fault Refusal := .next (assembleInstr 14 opd s)

end Sys2Proof.Machine
end

