-- ==== Sys2Proof/Machine/RegisterClass.lean ====
section
/-! DEFINITION. The six instructions of operand width 4 (45_register_class_instructions.md): byte 1 is the low 4 bits of the operand (R193).
Each meaning is what CompileLine does for a line that names the instruction, from the operand on; the record is
assembled, never executed (00_scope.md R7). -/

namespace Sys2Proof.Machine

/-- `load`, ordinal 1 (R220). -/
def execLoad (opd : Operand) (s : State) : Host.Outcome State Fault Refusal := .next (assembleInstr 1 opd s)

/-- `store`, ordinal 3 (R221). -/
def execStore (opd : Operand) (s : State) : Host.Outcome State Fault Refusal := .next (assembleInstr 3 opd s)

/-- `add`, ordinal 4 (R222). -/
def execAdd (opd : Operand) (s : State) : Host.Outcome State Fault Refusal := .next (assembleInstr 4 opd s)

/-- `sub`, ordinal 5 (R223). -/
def execSub (opd : Operand) (s : State) : Host.Outcome State Fault Refusal := .next (assembleInstr 5 opd s)

/-- `mult`, ordinal 6 (R224). -/
def execMult (opd : Operand) (s : State) : Host.Outcome State Fault Refusal := .next (assembleInstr 6 opd s)

/-- `div`, ordinal 7 (R225). -/
def execDiv (opd : Operand) (s : State) : Host.Outcome State Fault Refusal := .next (assembleInstr 7 opd s)

end Sys2Proof.Machine
end

