-- ==== Sys2Proof/Machine/ZeroOperand.lean ====
section
/-! DEFINITION. The two instructions of operand width 0 (44_zero_operand_instructions.md): byte 1 is 0x00 whatever the operand (R192).
Each meaning is what CompileLine does for a line that names the instruction, from the operand on; the record is
assembled, never executed (00_scope.md R7). -/

namespace Sys2Proof.Machine

/-- `nop`, ordinal 0 (R210). -/
def execNop (opd : Operand) (s : State) : Host.Outcome State Fault Refusal := .next (assembleInstr 0 opd s)

/-- `end`, ordinal 15 (R211). -/
def execEndProgram (opd : Operand) (s : State) : Host.Outcome State Fault Refusal := .next (assembleInstr 15 opd s)

end Sys2Proof.Machine
end

