-- ==== Sys2Proof/Machine/Dispatch.lean ====
section
/-! DEFINITION. The dispatch of an instruction to its meaning, one arm per constructor. -/

namespace Sys2Proof.Machine

def exec (i : Instr) (s : State) : Host.Outcome State Fault Refusal :=
  match i with
  | .nop opd => Sys2Proof.Machine.execNop opd s
  | .load opd => Sys2Proof.Machine.execLoad opd s
  | .dload opd => Sys2Proof.Machine.execDload opd s
  | .store opd => Sys2Proof.Machine.execStore opd s
  | .add opd => Sys2Proof.Machine.execAdd opd s
  | .sub opd => Sys2Proof.Machine.execSub opd s
  | .mult opd => Sys2Proof.Machine.execMult opd s
  | .div opd => Sys2Proof.Machine.execDiv opd s
  | .jump opd => Sys2Proof.Machine.execJump opd s
  | .jge opd => Sys2Proof.Machine.execJge opd s
  | .jgt opd => Sys2Proof.Machine.execJgt opd s
  | .jle opd => Sys2Proof.Machine.execJle opd s
  | .jlt opd => Sys2Proof.Machine.execJlt opd s
  | .jeq opd => Sys2Proof.Machine.execJeq opd s
  | .jne opd => Sys2Proof.Machine.execJne opd s
  | .endProgram opd => Sys2Proof.Machine.execEndProgram opd s

end Sys2Proof.Machine
end

