-- ==== Sys2Proof/Machine/LineCompiler.lean ====
section
/-! DEFINITION. The step of CORE: `CompileLine` (47_line_compiler.md R260), one atomic transition (00_scope.md R9). -/

namespace Sys2Proof.Machine

/-- CompileLine on the bytes of the line (R260): the transients are cleared, the comment is stripped, the tokens are
found; then a blank line ends with no record (R263), an unknown mnemonic raises its condition with token 0 (R143), and
an instruction runs its meaning, HIT and OPC written. -/
def compileBytes (line : List Byte) (s : State) : Host.Outcome State Fault Refusal :=
  match decodeLine line with
  | .blank => .next (finishBlank { s with core := s.core.scanned line })
  | .unknown => .next (raise .unknownMnemonic false { s with core := s.core.scanned line })
  | .instr i => exec i { s with core := (s.core.scanned line).putHit i.ordinal }

/-- CompileLine on the line in LINE. A line that holds 0x00 is outside the spec and gets no step (20_memory.md R52). -/
def compileLine (s : State) : Host.Outcome State Fault Refusal :=
  match s.core.lineBytes with
  | none => .fault .lineByteUnwritten
  | some line => if line.contains 0 then .refused .zeroByteInLine else compileBytes line s

end Sys2Proof.Machine
end

