-- ==== Sys2Proof/Machine/Step.lean ====
section
/-! DEFINITION. One step of the machine: the agent whose turn it is takes its step (00_scope.md R9, 20_memory.md R61). -/

namespace Sys2Proof.Machine

/-- One step. After the end of the run nothing changes any more (20_memory.md R66; log entry 19). -/
def step (s : State) : Host.Outcome State Fault Refusal :=
  match s.turn with
  | .startUp => startUp s
  | .deliver => .next (deliver s)
  | .compile => compileLine s
  | .act => act s
  | .ended => .next s

/-- The state with the canonical line (30_encoding.md R96) of the instruction that a table word decodes to in LINE, and
`start` asserted: the very next step compiles it. A word ASMCORE never produces has no line, and changes nothing. -/
def State.withFetchWord (s : State) (nbits w : Nat) : State :=
  match decodeTableWord nbits w with
  | some i => s.withLine i.spell
  | none => s

end Sys2Proof.Machine
end

