-- ==== Sys2Proof/Machine/Assemble.lean ====
section
/-! DEFINITION. What a whole source text compiles to, as a function of the text alone: `CompileLine`'s result
(47_line_compiler.md R268) and `Assemble` (48_program_driver.md R296). The machine's steps are in LineCompiler.lean and
Driver.lean; claims compare the two. -/

namespace Sys2Proof.Machine

/-- The result of CompileLine on a line, as the HOST sees it (R268). -/
inductive LineResult where
  /-- a blank line: no record, no diagnostic -/
  | nothing
  /-- a record, byte 0 first -/
  | record (rec : Byte × Byte)
  /-- a raised condition and the token it names -/
  | failed (c : ErrCode) (token : List Byte)
  deriving DecidableEq, Repr

/-- The bytes of the `n`-th token of a line; none has no bytes. -/
def tokenBytes (line : List Byte) (n : Nat) : List Byte :=
  match (tokens line)[n]? with
  | some p => slice line p
  | none => []

/-- The table of all results of CompileLine (R268). -/
def lineResult (line : List Byte) : LineResult :=
  match decodeLine line with
  | .blank => .nothing
  | .unknown => .failed .unknownMnemonic (tokenBytes line 0)
  | .instr i =>
    match i.operand with
    | .absent => .record (encodeRec i.ordinal absentOperand)
    | .value v => .record (encodeRec i.ordinal v)
    | .malformed => .failed .malformedNumber (tokenBytes line 1)
    | .outOfRange => .failed .numberOutOfRange (tokenBytes line 1)

/-- The pieces of a text, at most `fuel` of them. -/
def cutPieces : Nat → List Byte → List (List Byte)
  | 0, _ => []
  | _ + 1, [] => []
  | fuel + 1, c :: cs =>
    (takePiece Config.lineMax (c :: cs)).1 :: cutPieces fuel (takePiece Config.lineMax (c :: cs)).2

/-- The lines the HOST delivers for a text, in order (R291, R292). -/
def linePieces (text : List Byte) : List (List Byte) := cutPieces text.length text

/-- OUT and DIAG of a list of lines, of which `n` have been delivered before (R296). -/
def assembleLines (n : Nat) : List (List Byte) → List Byte × List Diagnostic
  | [] => ([], [])
  | line :: rest =>
    let later := assembleLines (n + 1) rest
    match lineResult line with
    | .nothing => later
    | .record rec => (rec.1 :: rec.2 :: later.1, later.2)
    | .failed c token => (later.1, { lineNo := n + 1, err := c, token := token } :: later.2)

/-- `Assemble(text)`: OUT and DIAG; EXIT is 0 (R296, R300). -/
def assembleText (text : List Byte) : List Byte × List Diagnostic := assembleLines 0 (linePieces text)

end Sys2Proof.Machine
end

