-- ==== Sys2Proof/Safety.lean ====
section
/-! DEFINITION. What the runs of ASMCORE keep: the invariants of the line buffer, of CORE's results and of OUT and DIAG,
in the terms the claims use. -/

namespace Sys2Proof.Machine

/-- CORE's index registers and LINE: the buffer keeps its form, every byte of the delivered line has been written, and
no index passes `LINE_MAX` (10_state.md R22, 20_memory.md R51). -/
structure State.BufferInv (s : State) : Prop where
  lineWf      : Memory.wf s.core.line
  lineWritten : ∀ a, a < s.core.lineLen → (Memory.read s.core.line a).isSome
  lineFits    : s.core.lineLen ≤ Config.lineMax
  effFits     : s.core.effLen ≤ Config.lineMax
  tok0Fits    : s.core.tok0.start + s.core.tok0.len ≤ Config.lineMax
  tok1Fits    : s.core.tok1.start + s.core.tok1.len ≤ Config.lineMax
  ntokLegal   : s.core.ntok ≠ 3
  pstatLegal  : s.core.pstat ≠ 3

/-- A record is one of those ASMCORE can produce (30_encoding.md R88). -/
def isRecord (b0 b1 : Byte) : Bool :=
  match decode [b0, b1] with
  | .ok _ => true
  | .error _ => false

/-- CORE's results: REC0, REC1 always hold bytes that form a producible record; while the HOST acts, STATUS is done and
legal, and an offending token lies in the line; `start` clears `done` (10_state.md R24, 43_instruction_encoder.md R191). -/
structure State.ResultInv (s : State) : Prop where
  recordLegal : isRecord s.core.rec0 s.core.rec1 = true
  startedDone : s.turn = .compile → s.core.status.done = false
  actDone     : s.turn = .act → s.core.status.done = true
  actLegal    : s.turn = .act → s.core.status.legal = true
  tokenInLine : s.turn = .act → s.core.status.ok = false →
    s.core.status.errTokS + s.core.status.errTokN ≤ s.core.lineLen

/-- A byte string that is a sequence of producible records (10_state.md R35, 30_encoding.md R82, R88). -/
def allRecords : List Byte → Bool
  | [] => true
  | [_] => false
  | b0 :: b1 :: rest => isRecord b0 b1 && allRecords rest

/-- Whether the per-line loop is running. -/
def State.inLoop (s : State) : Bool := s.turn = .deliver || s.turn = .compile || s.turn = .act

/-- OUT and DIAG: in a run that has not ended with a fatal error OUT is a sequence of producible records, no more
records and diagnostics than lines delivered, and every diagnostic carries a condition and the number of a delivered
line; exit status 1 and a report of a fatal error go together; the loop runs with handles held and exit status 0
(48_program_driver.md R296, R299 to R302). -/
structure State.OutputInv (s : State) : Prop where
  outRecords  : s.host.exit = 0 → allRecords s.host.out = true
  loopExit    : s.inLoop = true → s.host.exit = 0
  exitReport  : s.host.exit = 1 ↔ s.host.report ≠ none
  loopHandles : s.inLoop = true → s.host.handles = true
  counts      : s.host.exit = 0 → s.host.out.length / 2 + s.host.diag.length ≤ s.host.lineNo
  pending     : s.turn = .compile ∨ s.turn = .act →
    s.host.out.length / 2 + s.host.diag.length < s.host.lineNo
  diagCodes   : ∀ d ∈ s.host.diag, d.err ≠ .none
  diagLines   : ∀ d ∈ s.host.diag, 1 ≤ d.lineNo ∧ d.lineNo ≤ s.host.lineNo

end Sys2Proof.Machine
end

