-- ==== Sys2Proof/Certificates/Slice0/Obligations.lean ====
section
/-! DEFINITION. The statements about ASMCORE for the provers. Each docstring names the rule of spec/ it formalises.
First the vocabulary the statements share, then the statements, from records and text up to whole runs. -/

namespace Sys2Proof.Claims

open Sys2Proof.Machine

/-! ### Vocabulary: numeric literals (30_encoding.md R93) -/

/-- The value of a string of digits in a base. -/
def numeral (base : Nat) (ds : List Byte) : Nat :=
  ds.foldl (fun n c => n * base + (digitVal c).getD 0) 0

/-- A literal without its sign and its magnitude: the grammar's `hex`, `octal` and `decimal`. -/
inductive Magnitude : List Byte → Nat → Prop
  | hex (x d : Byte) (ds : List Byte) :
      x = 0x78 ∨ x = 0x58 → (∀ c ∈ d :: ds, isDigit 16 c = true) →
      Magnitude (0x30 :: x :: d :: ds) (numeral 16 (d :: ds))
  | octal (ds : List Byte) :
      (∀ c ∈ ds, isDigit 8 c = true) → Magnitude (0x30 :: ds) (numeral 8 ds)
  | decimal (d : Byte) (ds : List Byte) :
      d ≠ 0x30 → (∀ c ∈ d :: ds, isDigit 10 c = true) → Magnitude (d :: ds) (numeral 10 (d :: ds))

/-- A literal, whether it is negative, and its magnitude: the grammar's `number`. -/
inductive Literal : List Byte → Bool → Nat → Prop
  | unsigned (t : List Byte) (m : Nat) : Magnitude t m → Literal t false m
  | plus (t : List Byte) (m : Nat) : Magnitude t m → Literal (0x2B :: t) false m
  | minus (t : List Byte) (m : Nat) : Magnitude t m → Literal (0x2D :: t) true m

/-! ### Vocabulary: records -/

/-- The operand a record of an ordinal holds when `v` was handed to the encoder (R87). -/
def recordOperand (k : OpOrdinal) (v : Word) : Operand :=
  if widthClass k = 0 then .absent else .value (BitVec.ofNat 32 (v.toNat % 2 ^ widthClass k))

/-- The bytes 0 of the register class (30_encoding.md R85, R83). -/
def registerBytes : List Byte := [0x01, 0x03, 0x04, 0x05, 0x06, 0x07]

/-- The bytes 0 of the address class. -/
def addressBytes : List Byte := [0x02, 0x08, 0x09, 0x0A, 0x0B, 0x0C, 0x0D, 0x0E]

/-- The bytes 0 of the zero-operand class. -/
def zeroBytes : List Byte := [0x00, 0x0F]

/-! ### Vocabulary: what an instruction's meaning does -/

/-- The instruction completes with a record: `exec` answers a next state with these bytes in REC0, REC1, this operand in
OPND and OPND_PRESENT, this value in PSTAT, and `STATUS <- (done=1, ok=1, emit=1, err=0)`. -/
def Assembles (i : Instr) (b0 b1 : Byte) (v : Word) (present : Bool) (p : BitVec 2) (s : State) : Prop :=
  ∃ t, exec i s = .next t ∧ t.core.rec0 = b0 ∧ t.core.rec1 = b1 ∧ t.core.opnd = v ∧
    t.core.opndPresent = present ∧ t.core.pstat = p ∧ t.core.status.done = true ∧ t.core.status.ok = true ∧
    t.core.status.emit = true ∧ t.core.status.err = .none ∧ t.turn = .act

/-- The instruction's operand raises a condition: `exec` answers a next state with PSTAT and all of STATUS written, token
1 named, and no other register, no record and no HOST state changed. -/
def Raises (i : Instr) (c : ErrCode) (p : BitVec 2) (s : State) : Prop :=
  exec i s = .next { s with
    core := { s.core with
      pstat := p
      status := { done := true, ok := false, emit := false, err := c, errTokIdx := true,
                  errTokS := s.core.tok1.start, errTokN := s.core.tok1.len } }
    turn := .act }

/-- The rule of one instruction, over all four forms of its operand: `b0` is byte 0, `b1 v` is byte 1 for the operand
value `v`. The parser writes `PSTAT <- 0` for a value (42_operand_parser.md R165) and is not run for an absent operand. -/
def InstructionRule (mk : Operand → Instr) (b0 : Byte) (b1 : Word → Byte) : Prop :=
  ∀ s : State,
    (∀ v, Assembles (mk (.value v)) b0 (b1 v) v true 0 s) ∧
    Assembles (mk .absent) b0 0x00 0 false s.core.pstat s ∧
    Raises (mk .malformed) .malformedNumber 1 s ∧
    Raises (mk .outOfRange) .numberOutOfRange 2 s

/-- Byte 1 in the register class: `v mod 16`. -/
def low4 (v : Word) : Byte := BitVec.ofNat 8 (v.toNat % 16)

/-- Byte 1 in the address class: `v mod 256`. -/
def low8 (v : Word) : Byte := BitVec.ofNat 8 (v.toNat % 256)

/-! ### Vocabulary: steps -/

/-- CORE's step is next and the line in LINE has these bytes, none of them 0x00. -/
def LineReady (s : State) (line : List Byte) : Prop :=
  s.turn = .compile ∧ s.core.lineBytes = some line ∧ (0 : Byte) ∉ line

/-- `n` steps of the machine end in the state `t`. -/
def Runs (n : Nat) (s t : State) : Prop := Host.Core.run Sys2Proof.core n s = .next t

end Sys2Proof.Claims

open Sys2Proof Sys2Proof.Machine Sys2Proof.Claims

/-! ### Records -/

/-- R97: the source's own examples of the format. -/
def Obligations.SourceExamplesEncode : Prop :=
  encodeRec 0 absentOperand = (0x00, 0x00) ∧ encodeRec 15 absentOperand = (0x0F, 0x00) ∧
  encodeRec 4 5 = (0x04, 0x05) ∧ encodeRec 4 20 = (0x04, 0x04) ∧ encodeRec 8 0x1F = (0x08, 0x1F) ∧
  -- `load 3`, `add 5      ; add register`, `jump 31`, `end`
  assembleLines 0
    [[0x6C, 0x6F, 0x61, 0x64, 0x20, 0x33],
     [0x61, 0x64, 0x64, 0x20, 0x35, 0x20, 0x20, 0x20, 0x20, 0x20, 0x20, 0x3B, 0x20, 0x61, 0x64, 0x64, 0x20, 0x72,
      0x65, 0x67, 0x69, 0x73, 0x74, 0x65, 0x72],
     [0x6A, 0x75, 0x6D, 0x70, 0x20, 0x33, 0x31],
     [0x65, 0x6E, 0x64]]
    = ([0x01, 0x03, 0x04, 0x05, 0x08, 0x1F, 0x0F, 0x00], [])

/-- R81, R85: words written out from the patterns of the opcode map, one or more of each class. The ordinals of `mult`,
`dload` and `jle` and the two refusals are the spec's decisions D4 and D20 (log entries 11, 14). -/
def Obligations.TableWordsDecode : Prop :=
  decodeTableWord 16 0b0000000000000000 = some (.nop .absent) ∧
  decodeTableWord 16 0b0000111100000000 = some (.endProgram .absent) ∧
  decodeTableWord 16 0b0000000100000011 = some (.load (.value 3)) ∧
  decodeTableWord 16 0b0000011000001001 = some (.mult (.value 9)) ∧
  decodeTableWord 16 0b0000001010101011 = some (.dload (.value 0xAB)) ∧
  decodeTableWord 16 0b0000101111111111 = some (.jle (.value 0xFF)) ∧
  decodeTableWord 16 0b0000010000010101 = none ∧
  decodeTableWord 16 0b0001000000000000 = none

/-- R87: decoding the record of any ordinal and any 32-bit operand gives back the ordinal and the operand modulo
`2^WIDTH_CLASS`, with the bytes after the record left over. -/
def Obligations.DecodeRecoversEncoded : Prop :=
  ∀ (k : OpOrdinal) (v : Word) (rest : List Byte),
    ∃ i, decode ((encodeRec k v).1 :: (encodeRec k v).2 :: rest) = .ok (i, rest) ∧
      i.ordinal = k ∧ i.operand = recordOperand k v

/-- R83, R87, R199: every well-formed instruction, with every operand its encoding admits, is decoded from its encoding. -/
def Obligations.DecodeEncodeWellFormed : Prop :=
  ∀ i : Instr, i.wf = true →
    ∃ bytes, encode i = some bytes ∧ ∀ rest, decode (bytes ++ rest) = .ok (i, rest)

/-- R88: what the record decoder accepts is the encoding of the well-formed instruction it answers, two bytes long. -/
def Obligations.DecodedRecordsEncodeBack : Prop :=
  ∀ (bytes rest : List Byte) (i : Instr), decode bytes = .ok (i, rest) →
    i.wf = true ∧ ∃ b0 b1, bytes = b0 :: b1 :: rest ∧ encode i = some [b0, b1]

/-- R88, D20: the decoder refuses, by name, each kind of record ASMCORE never produces, and a record it refuses for
none of these reasons is one that Encode produces. That a decoder refuses them is log entry 14. -/
def Obligations.UnproducedRecordsRefused : Prop :=
  ∀ (b0 b1 : Byte) (rest : List Byte),
    (16 ≤ b0.toNat → decode (b0 :: b1 :: rest) = .error .opcodeOutOfRange) ∧
    (b0 ∈ zeroBytes → b1 ≠ 0 → decode (b0 :: b1 :: rest) = .error .zeroOperandByte) ∧
    (b0 ∈ registerBytes → 16 ≤ b1.toNat → decode (b0 :: b1 :: rest) = .error .registerHighNibble) ∧
    ((∃ k v, encodeRec k v = (b0, b1)) ↔
      (b0 ∈ zeroBytes ∧ b1 = 0) ∨ (b0 ∈ registerBytes ∧ b1.toNat < 16) ∨ b0 ∈ addressBytes)

/-- R88, W1: of the 65536 two-byte values the decoder accepts exactly 2146. -/
def Obligations.ProducibleRecordCount : Prop :=
  ((List.range 256).map fun b0 =>
    ((List.range 256).filter fun b1 => isRecord (BitVec.ofNat 8 b0) (BitVec.ofNat 8 b1)).length).sum = 2146

/-- R191 to R194: the two bytes of a record by class, the classes as lists of ordinals (R86). That these ordinals are the
mnemonics of each class rests on the spec's decision D4 (log entry 11). -/
def Obligations.EncodeByClass : Prop :=
  ∀ (k : OpOrdinal) (v : Word),
    (encodeRec k v).1.toNat = k.toNat ∧
    (k ∈ ([0, 15] : List OpOrdinal) → (encodeRec k v).2 = 0x00) ∧
    (k ∈ ([1, 3, 4, 5, 6, 7] : List OpOrdinal) → (encodeRec k v).2 = low4 v) ∧
    (k ∈ ([2, 8, 9, 10, 11, 12, 13, 14] : List OpOrdinal) → (encodeRec k v).2 = low8 v)

/-- R199: two operand values give the same record exactly when they agree modulo `2^WIDTH_CLASS`. -/
def Obligations.SameRecordIffCongruent : Prop :=
  ∀ (k : OpOrdinal) (u v : Word),
    encodeRec k u = encodeRec k v ↔ u.toNat % 2 ^ widthClass k = v.toNat % 2 ^ widthClass k

/-- R147: the width-class table. The order of the table is the spec's decision D4 (log entry 11). -/
def Obligations.WidthClassTable : Prop :=
  ordinals.map widthClass = [0, 4, 8, 4, 4, 4, 4, 4, 8, 8, 8, 8, 8, 8, 8, 0]

/-! ### Text -/

/-- R141: ASCII capitals move up by 0x20, every other byte stays. -/
def Obligations.FoldCapitalsOnly : Prop :=
  ∀ c : Byte,
    (0x41 ≤ c.toNat ∧ c.toNat ≤ 0x5A → (fold c).toNat = c.toNat + 0x20) ∧
    (c.toNat < 0x41 ∨ 0x5A < c.toNat → fold c = c)

/-- R140, R143: the sixteen names of the table, by ordinal, and a token names an ordinal exactly when its folded bytes are
that ordinal's name, so it names at most one. The order of eleven of the names is the spec's decision D4 (log entry 11). -/
def Obligations.MnemonicLookupExact : Prop :=
  -- nop load dload store, add sub mult div, jump jge jgt jle, jlt jeq jne end
  ordinals.map mnemonicName =
    [[0x6E, 0x6F, 0x70], [0x6C, 0x6F, 0x61, 0x64], [0x64, 0x6C, 0x6F, 0x61, 0x64], [0x73, 0x74, 0x6F, 0x72, 0x65],
     [0x61, 0x64, 0x64], [0x73, 0x75, 0x62], [0x6D, 0x75, 0x6C, 0x74], [0x64, 0x69, 0x76],
     [0x6A, 0x75, 0x6D, 0x70], [0x6A, 0x67, 0x65], [0x6A, 0x67, 0x74], [0x6A, 0x6C, 0x65],
     [0x6A, 0x6C, 0x74], [0x6A, 0x65, 0x71], [0x6A, 0x6E, 0x65], [0x65, 0x6E, 0x64]] ∧
  ordinals.map BitVec.toNat = List.range 16 ∧
  ∀ (t : List Byte) (k : OpOrdinal), lookupMnemonic t = some k ↔ t.map fold = mnemonicName k

/-- R120: EFF_LEN is the index of the first `#` or `;`, or the line's length. -/
def Obligations.CommentCutAtFirst : Prop :=
  ∀ line : List Byte,
    effLen line ≤ line.length ∧
    (∀ (a : Nat) (c : Byte), a < effLen line → (line)[a]? = some c → c ≠ 0x23 ∧ c ≠ 0x3B) ∧
    (effLen line < line.length → (line)[effLen line]? = some 0x23 ∨ (line)[effLen line]? = some 0x3B)

/-- R123: WS is six bytes, and the tokens are exactly the maximal runs of bytes not in WS of the stripped line, in order
of position. The set WS (R10) is the spec's decision D5 (log entry 12). -/
def Obligations.TokensAreMaximalRuns : Prop :=
  (∀ c : Byte, isSpace c = true ↔ c ∈ ([0x20, 0x09, 0x0A, 0x0B, 0x0C, 0x0D] : List Byte)) ∧
  ∀ line : List Byte,
    (∀ p : Span, p ∈ tokens line ↔
      1 ≤ p.len ∧ p.start + p.len ≤ (strip line).length ∧
      (∀ a, p.start ≤ a → a < p.start + p.len → ∃ c, (strip line)[a]? = some c ∧ isSpace c = false) ∧
      (p.start = 0 ∨ ∃ c, (strip line)[p.start - 1]? = some c ∧ isSpace c = true) ∧
      (p.start + p.len = (strip line).length ∨
        ∃ c, (strip line)[p.start + p.len]? = some c ∧ isSpace c = true)) ∧
    (tokens line).Pairwise (fun p q => p.start + p.len < q.start)

/-- R122: a comment character and what follows it change nothing. -/
def Obligations.CommentChangesNothing : Prop :=
  ∀ (line rest : List Byte) (c : Byte), c = 0x23 ∨ c = 0x3B →
    lineResult (line ++ c :: rest) = lineResult line

/-- R125, R266: once a line has two tokens, whitespace and anything after it change nothing. -/
def Obligations.LaterTokensIgnored : Prop :=
  ∀ (line rest : List Byte) (w : Byte), 2 ≤ (tokens line).length → isSpace w = true →
    lineResult (line ++ w :: rest) = lineResult line

/-- R53, R124: whitespace before and after a line changes nothing, a line terminator among it. The set WS is the spec's
decision D5 (log entry 12). -/
def Obligations.OuterSpaceIgnored : Prop :=
  ∀ line ws : List Byte, (∀ w ∈ ws, isSpace w = true) →
    lineResult (line ++ ws) = lineResult line ∧ lineResult (ws ++ line) = lineResult line

/-- R163: the digit values. -/
def Obligations.DigitValues : Prop :=
  ∀ c : Byte,
    (0x30 ≤ c.toNat ∧ c.toNat ≤ 0x39 → digitVal c = some (c.toNat - 0x30)) ∧
    (0x61 ≤ c.toNat ∧ c.toNat ≤ 0x66 → digitVal c = some (c.toNat - 0x61 + 10)) ∧
    (0x41 ≤ c.toNat ∧ c.toNat ≤ 0x46 → digitVal c = some (c.toNat - 0x41 + 10)) ∧
    (c.toNat < 0x30 ∨ (0x39 < c.toNat ∧ c.toNat < 0x41) ∨ (0x46 < c.toNat ∧ c.toNat < 0x61) ∨ 0x66 < c.toNat →
      digitVal c = none) ∧
    ∀ base, isDigit base c = true ↔ ∃ d, digitVal c = some d ∧ d < base

/-- R167: MalformedNumber exactly when the token does not match the grammar of R93. The grammar's finer points are the
spec's decisions D6 to D9 (log entry 12). -/
def Obligations.MalformedExactlyOffGrammar : Prop :=
  ∀ t : List Byte, parseOperand t = .malformed ↔ ¬ ∃ neg m, Literal t neg m

/-- R168: NumberOutOfRange exactly when the token matches the grammar and its magnitude is greater than 4294967295,
whatever the sign. The bound and its sign rule are the spec's decisions D3 and D23 (log entries 10, 12). -/
def Obligations.OutOfRangeExactlyAboveMax : Prop :=
  ∀ t : List Byte, parseOperand t = .outOfRange ↔ ∃ neg m, Literal t neg m ∧ 4294967295 < m

/-- R165, R171, R173: the value of an accepted literal, two's complement for a negative one. The grammar and the value
of a negative literal rest on D3, D6 to D9 and D23 (log entries 10, 12). -/
def Obligations.LiteralValues : Prop :=
  ∀ (t : List Byte) (neg : Bool) (m : Nat), Literal t neg m → m ≤ 4294967295 →
    ∃ v, parseOperand t = .value v ∧ v.toNat = if neg then (2 ^ 32 - m) % 2 ^ 32 else m

/-- R166: the 32-bit accumulator with the sticky overflow bit gives the same result as the unbounded one. -/
def Obligations.WrappedAccumulatorAgrees : Prop :=
  ∀ t : List Byte, parseOperandWrapped t = parseOperand t

/-- R96: the canonical line of every instruction, with every form of its operand, is read back as that instruction. For
the operand forms R96 gives no spelling for (a failing one, an operand of `nop` or `end`), the spelling is the model's
own, of log entry 16. -/
def Obligations.CanonicalLineReadsBack : Prop :=
  ∀ i : Instr, decodeLine i.spell = .instr i

/-! ### Instructions -/

/-- R210, R211: `nop` and `end` complete with byte 1 zero whatever value their operand has, and raise the parser's
conditions. That the absent operand is 0 is log entry 9. -/
def Obligations.ZeroOperandInstructions : Prop :=
  InstructionRule .nop 0x00 (fun _ => 0x00) ∧ InstructionRule .endProgram 0x0F (fun _ => 0x00)

/-- R220 to R225: `load`, `store`, `add`, `sub`, `mult`, `div` complete with byte 1 the operand modulo 16 (0 when it is
absent), and raise the parser's conditions. The absent operand 0 is log entry 9, the ordinals log entry 11. -/
def Obligations.RegisterClassInstructions : Prop :=
  InstructionRule .load 0x01 low4 ∧ InstructionRule .store 0x03 low4 ∧ InstructionRule .add 0x04 low4 ∧
  InstructionRule .sub 0x05 low4 ∧ InstructionRule .mult 0x06 low4 ∧ InstructionRule .div 0x07 low4

/-- R240 to R247: `dload`, `jump` and the six conditional jumps complete with byte 1 the operand modulo 256 (0 when it
is absent), and raise the parser's conditions. The absent operand 0 is log entry 9, the ordinals log entry 11. -/
def Obligations.AddressClassInstructions : Prop :=
  InstructionRule .dload 0x02 low8 ∧ InstructionRule .jump 0x08 low8 ∧ InstructionRule .jge 0x09 low8 ∧
  InstructionRule .jgt 0x0A low8 ∧ InstructionRule .jle 0x0B low8 ∧ InstructionRule .jlt 0x0C low8 ∧
  InstructionRule .jeq 0x0D low8 ∧ InstructionRule .jne 0x0E low8

/-- The frame of all sixteen instructions (R210, R211, R220 to R225, R240 to R247; R26, R51): no instruction writes
LINE, LINE_LEN, EFF_LEN, NTOK, the token registers, HIT, OPC, OUT or any other HOST state; a missing operand leaves
PSTAT, a failed one leaves OPND, OPND_PRESENT, REC0 and REC1. No form stores to memory: every byte of LINE reads as
before. That a register no path writes keeps its value is log entry 7. -/
def Obligations.InstructionFrame : Prop :=
  ∀ (i : Instr) (s t : State), exec i s = .next t →
    t.host = s.host ∧ t.core.lineLen = s.core.lineLen ∧ t.core.effLen = s.core.effLen ∧
    t.core.ntok = s.core.ntok ∧ t.core.tok0 = s.core.tok0 ∧ t.core.tok1 = s.core.tok1 ∧
    t.core.hit = s.core.hit ∧ t.core.opc = s.core.opc ∧
    (∀ a, Memory.read t.core.line a = Memory.read s.core.line a) ∧
    (i.operand = .absent → t.core.pstat = s.core.pstat) ∧
    (i.operand = .malformed ∨ i.operand = .outOfRange →
      t.core.opnd = s.core.opnd ∧ t.core.opndPresent = s.core.opndPresent ∧
      t.core.rec0 = s.core.rec0 ∧ t.core.rec1 = s.core.rec1 ∧ t.draws = s.draws)

/-- R190, R267: the record an instruction hands over is its encoding, and an instruction without an encoding hands over
none. -/
def Obligations.RecordIsEncoding : Prop :=
  ∀ (i : Instr) (s : State), ∃ t, exec i s = .next t ∧
    (∀ bytes, encode i = some bytes →
      t.core.status.emit = true ∧ bytes = [t.core.rec0, t.core.rec1]) ∧
    (encode i = none → t.core.status.emit = false ∧ t.core.status.ok = false)

/-! ### CORE's step -/

/-- A step runs the decoded instruction (R260): with CORE's step next and a line that reads as the instruction `i`, the
step is `exec i` of the same state with the transient registers cleared and EFF_LEN, NTOK, the token registers, HIT and
OPC written; NTOK saturates at 2 and a token register without a token keeps its value. Token registers that keep their
value are log entry 7. -/
def Obligations.StepRunsDecodedInstruction : Prop :=
  ∀ (s : State) (line : List Byte) (i : Instr), LineReady s line → decodeLine line = .instr i →
    step s = exec i { s with
      core := { s.core with
        effLen := effLen line
        ntok := BitVec.ofNat 2 (min 2 (tokens line).length)
        tok0 := (tokens line)[0]?.getD s.core.tok0
        tok1 := (tokens line)[1]?.getD s.core.tok1
        hit := true
        opc := i.ordinal
        opnd := 0
        opndPresent := false
        pstat := 0 } }

/-- The word the host places is the instruction the step runs: with the canonical line of a table word's instruction in
LINE, the next step is `exec` of that instruction (R87, R96, R260). How the word is placed is log entry 16. -/
def Obligations.FetchWordRunsInstruction : Prop :=
  ∀ (s : State) (w : Nat) (i : Instr), decodeTableWord 16 w = some i →
    ∃ u, step (s.withFetchWord 16 w) = exec i u ∧ u.host = s.host ∧ u.core.lineBytes = some i.spell

/-- R268, R270, R269: CompileLine always answers, and its result is the row of the table of all results that the line's
bytes select. The rows rest on the spec's decisions D2, D3, D14 and D15 (log entries 9, 10, 12). -/
def Obligations.StepGivesLineResult : Prop :=
  ∀ (s : State) (line : List Byte), LineReady s line →
    ∃ t, step s = .next t ∧ t.turn = .act ∧ t.core.status.done = true ∧
      match lineResult line with
      | .nothing =>
        t.core.status.ok = true ∧ t.core.status.emit = false ∧ t.core.status.err = .none
      | .record rec =>
        t.core.status.ok = true ∧ t.core.status.emit = true ∧ t.core.status.err = .none ∧
        t.core.rec0 = rec.1 ∧ t.core.rec1 = rec.2
      | .failed c token =>
        t.core.status.ok = false ∧ t.core.status.emit = false ∧ t.core.status.err = c ∧ c ≠ .none ∧
        slice line ⟨t.core.status.errTokS, t.core.status.errTokN⟩ = token

/-- R263, R126: a line with no token succeeds with no record; the HOST's next step appends nothing and prints nothing. -/
def Obligations.BlankLineEmitsNothing : Prop :=
  ∀ (s : State) (line : List Byte), LineReady s line → tokens line = [] →
    ∃ t u, step s = .next t ∧ t.core.status.ok = true ∧ t.core.status.emit = false ∧
      t.core.status.err = .none ∧ step t = .next u ∧ u.host = s.host ∧ u.turn = .deliver

/-- R143, R326, R327: a first token that is no name after folding raises UnknownMnemonic with token 0, HIT 0, OPC and
the record registers not written, the operand not looked at (R329), and no HOST state changed. Registers that keep
their value are log entry 7. -/
def Obligations.UnknownMnemonicRaised : Prop :=
  ∀ (s : State) (line : List Byte) (p : Span) (more : List Span), LineReady s line →
    tokens line = p :: more → (∀ k, (slice line p).map fold ≠ mnemonicName k) →
    ∃ t, step s = .next t ∧
      t.core.status = { done := true, ok := false, emit := false, err := .unknownMnemonic, errTokIdx := false,
                        errTokS := p.start, errTokN := p.len } ∧
      t.core.hit = false ∧ t.core.opc = s.core.opc ∧ t.core.opnd = 0 ∧ t.core.pstat = 0 ∧
      t.core.rec0 = s.core.rec0 ∧ t.core.rec1 = s.core.rec1 ∧ t.host = s.host ∧ t.turn = .act

/-- R24: after every CompileLine STATUS is done and (ok, emit, err) is (1,0,0), (1,1,0), (0,0,1), (0,0,2) or (0,0,3); and
err_tok_s and err_tok_n fit in the L bits that R22 gives them when the line buffer's invariant held before (log entry 20). -/
def Obligations.StatusAlwaysLegal : Prop :=
  ∀ s t : State, s.turn = .compile → step s = .next t →
    t.core.status.done = true ∧
    (t.core.status.ok, t.core.status.emit, t.core.status.err) ∈
      [(true, false, ErrCode.none), (true, true, ErrCode.none), (false, false, ErrCode.unknownMnemonic),
       (false, false, ErrCode.malformedNumber), (false, false, ErrCode.numberOutOfRange)] ∧
    (s.BufferInv →
      t.core.status.errTokS < 2 ^ Config.indexBits ∧ t.core.status.errTokN < 2 ^ Config.indexBits)

/-- R21, R269, R364: two states with the same line in LINE, however different otherwise, give the same result flags,
the same record when there is one, the same offending token when there is one, and the same transient registers. The
transient registers are log entry 7. -/
def Obligations.EqualLinesEqualResults : Prop :=
  ∀ (s s' t t' : State) (line : List Byte), LineReady s line → LineReady s' line →
    step s = .next t → step s' = .next t' →
    t.core.status.ok = t'.core.status.ok ∧ t.core.status.emit = t'.core.status.emit ∧
    t.core.status.err = t'.core.status.err ∧
    (t.core.status.emit = true → t.core.rec0 = t'.core.rec0 ∧ t.core.rec1 = t'.core.rec1) ∧
    (t.core.status.ok = false →
      t.core.status.errTokIdx = t'.core.status.errTokIdx ∧ t.core.status.errTokS = t'.core.status.errTokS ∧
      t.core.status.errTokN = t'.core.status.errTokN) ∧
    t.core.opnd = t'.core.opnd ∧ t.core.opndPresent = t'.core.opndPresent ∧ t.core.pstat = t'.core.pstat ∧
    t.core.hit = t'.core.hit ∧ t.core.ntok = t'.core.ntok ∧ t.core.effLen = t'.core.effLen

/-- R51, R371, R326: CORE's step never writes LINE or LINE_LEN and never touches the HOST's state. -/
def Obligations.CoreStepKeepsLineAndHost : Prop :=
  ∀ s t : State, s.turn = .compile → step s = .next t →
    t.core.line = s.core.line ∧ t.core.lineLen = s.core.lineLen ∧ t.host = s.host ∧ t.turn = .act

/-- R52: a line that holds a 0x00 byte gets no step. The refusal is log entry 13. -/
def Obligations.ZeroByteLineRefused : Prop :=
  ∀ (s : State) (line : List Byte), s.turn = .compile → s.core.lineBytes = some line → (0 : Byte) ∈ line →
    step s = .refused .zeroByteInLine

/-- R24: the fields of the STATUS word at their bit positions, for index fields that fit in `L` bits. The bit positions
are the spec's decision D15; the fields are held apart by log entry 20. -/
def Obligations.StatusWordLayout : Prop :=
  ∀ (L : Nat) (st : Status), st.errTokS < 2 ^ L → st.errTokN < 2 ^ L →
    (st.word L).testBit 0 = st.done ∧ (st.word L).testBit 1 = st.ok ∧ (st.word L).testBit 2 = st.emit ∧
    st.word L / 2 ^ 3 % 2 ^ 2 = st.err.code.toNat ∧ (st.word L).testBit 5 = st.errTokIdx ∧
    st.word L / 2 ^ 6 % 2 ^ L = st.errTokS ∧ st.word L / 2 ^ (6 + L) = st.errTokN

/-! ### The HOST's steps -/

/-- R294: OUT gets REC0 then REC1 at its end when `emit = 1` and is unchanged when `emit = 0`. -/
def Obligations.RecordAppendedWhenEmitted : Prop :=
  ∀ s : State, s.turn = .act → s.core.status.ok = true →
    ∃ t, step s = .next t ∧ t.turn = .deliver ∧ t.core = s.core ∧
      t.host = { s.host with
        out := s.host.out ++ if s.core.status.emit then [s.core.rec0, s.core.rec1] else [] }

/-- R295, R58, R328: for a failed line the HOST writes exactly one diagnostic, with the line number, the code and the
token's bytes, leaves OUT as it was, and goes on to the next line. OUT and DIAG as lists are log entry 6. -/
def Obligations.FailedLineOneDiagnostic : Prop :=
  ∀ (s : State) (token : List Byte), s.turn = .act → s.core.status.ok = false → s.core.status.emit = false →
    Memory.readBytes s.core.line s.core.status.errTokS s.core.status.errTokN = some token →
    ∃ t, step s = .next t ∧ t.turn = .deliver ∧ t.core = s.core ∧
      t.host = { s.host with
        diag := s.host.diag ++ [{ lineNo := s.host.lineNo, err := s.core.status.err, token := token }] }

/-- R291, R292: a piece and the rest make up the text; a piece is 1 to `LINE_MAX` bytes, holds a terminator at most as
its last byte, and ends without one only at `LINE_MAX` bytes or at the end of the text. The terminator and the cut are
log entries 25 and 4. -/
def Obligations.PieceCut : Prop :=
  ∀ (c : Byte) (cs p r : List Byte), takePiece Config.lineMax (c :: cs) = (p, r) →
    p ++ r = c :: cs ∧ 1 ≤ p.length ∧ p.length ≤ Config.lineMax ∧ (0x0A : Byte) ∉ p.dropLast ∧
    (p.getLast? = some 0x0A ∨ p.length = Config.lineMax ∨ r = [])

/-- R290, R293, R366: the HOST delivers the next piece of the text: its bytes are LINE's first LINE_LEN bytes, the line
counter goes up by one, `done` is cleared, and OUT and DIAG stay. The step and `start` are log entry 2, the cut log
entry 4. -/
def Obligations.NextLineDelivered : Prop :=
  ∀ (s : State) (c : Byte) (cs p r : List Byte), s.turn = .deliver → s.host.input = c :: cs →
    takePiece Config.lineMax (c :: cs) = (p, r) →
    ∃ t, step s = .next t ∧ t.turn = .compile ∧ t.core.lineBytes = some p ∧ t.core.lineLen = p.length ∧
      t.core.status.done = false ∧ t.host = { s.host with lineNo := s.host.lineNo + 1, input := r }

/-- The frame of a delivery (R22 "written by", R366): bytes of LINE beyond the delivered line, every register but LINE,
LINE_LEN and STATUS.done, and the other STATUS fields stay. The step is log entry 2; values that stay are log entry 7.
-/
def Obligations.DeliveryFrame : Prop :=
  ∀ (s t : State) (c : Byte) (cs : List Byte), s.turn = .deliver → s.host.input = c :: cs → step s = .next t →
    (∀ a, t.core.lineLen ≤ a → Memory.read t.core.line a = Memory.read s.core.line a) ∧
    { t.core with line := s.core.line, lineLen := s.core.lineLen, status := s.core.status } = s.core ∧
    { t.core.status with done := s.core.status.done } = s.core.status

/-- R300, R302: when no text is left the run ends with exit status 0 and the handles released, whatever the lines did;
OUT and DIAG are final, and (the model's choice, log entry 19) nothing changes any more. `handles` is log entry 22. -/
def Obligations.RunEndsWithStatusZero : Prop :=
  ∀ s : State, s.turn = .deliver → s.host.input = [] →
    ∃ t, step s = .next t ∧ t.turn = .ended ∧ t.host = { s.host with exit := 0, handles := false } ∧
      t.core = s.core ∧ step t = .next t

/-- R298, R299, R365: the start-up step. A missing input path, a missing argument to `-o`, an unreadable input or an
unwritable output is reported to the user and ends the run with exit status 1, CORE not used; otherwise the loop is
entered with the named paths, the text of the input, OUT and DIAG empty, LINE_NO 0 and nothing reported. `w` and `o` are
paths, not options. The forms, the invocation, EXIT, `handles` and the report are log entries 15, 16, 18, 22 and 27. -/
def Obligations.StartUpOutcomes : Prop :=
  ∀ (s : State) (w o text : List Byte), s.turn = .startUp → isPath w = true → isPath o = true → w ≠ o →
    w ≠ defaultOutPath →
    (s.host.args ∈ [[], [optionO], [optionO, o]] →
      ∃ t, step s = .next t ∧ t.turn = .ended ∧ t.host.exit = 1 ∧ t.host.report = some .usage ∧ t.core = s.core) ∧
    (s.host.args ∈ [[w], [optionO, o, w]] → s.host.sourceFile = none ∨ s.host.outOpens = false →
      ∃ t, step s = .next t ∧ t.turn = .ended ∧ t.host.exit = 1 ∧ t.core = s.core ∧
        ((s.host.sourceFile = none ∧ t.host.report = some .unreadableInput) ∨
          (s.host.outOpens = false ∧ t.host.report = some .unwritableOutput))) ∧
    (s.host.args ∈ [[w], [optionO, o, w]] → s.host.sourceFile = some text → s.host.outOpens = true →
      ∃ t, step s = .next t ∧ t.turn = .deliver ∧ t.host.fileName = w ∧ t.host.input = text ∧
        t.host.out = [] ∧ t.host.diag = [] ∧ t.host.lineNo = 0 ∧ t.host.exit = 0 ∧ t.host.report = none ∧
        t.host.handles = true ∧ t.host.outPath = (if s.host.args = [w] then defaultOutPath else o))

/-- R299, R320: exit status 1 and the report of a fatal error come from the start-up step only; no line-level error becomes
fatal. EXIT before it is decided is log entry 18, the report log entry 27. -/
def Obligations.ExitOneOnlyAtStartUp : Prop :=
  ∀ s t : State, step s = .next t → s.turn ≠ .startUp →
    (s.host.exit = 0 → t.host.exit = 0) ∧ t.host.report = s.host.report

/-- R295, R299, R328: what the user is told. After a fatal error it is one report; in a run without one it is one line for
each diagnostic, in order, `<program-name>:<input-file-name>:<line-number>: <message>` with the token named in the message.
The words around the token are log entry 23, the report log entry 27. -/
def Obligations.UserIsTold : Prop :=
  ∀ h : HostData,
    (h.report ≠ none → (userReports h).length = 1) ∧
    (h.report = none → (userReports h).length = h.diag.length ∧
      ∀ (n : Nat) (d : Diagnostic), h.diag[n]? = some d →
        ∃ before after, (userReports h)[n]? = some
          (h.progName ++ [0x3A] ++ h.fileName ++ [0x3A] ++ decimal d.lineNo ++ [0x3A, 0x20]
            ++ before ++ d.token ++ after))

/-- R21, R66: OUT and DIAG only grow during the loop; no step takes a record or a diagnostic back. After the end
nothing changes (log entry 19). -/
def Obligations.OutputOnlyGrows : Prop :=
  ∀ s t : State, step s = .next t → s.turn ≠ .startUp →
    s.host.out <+: t.host.out ∧ s.host.diag <+: t.host.diag ∧ s.host.lineNo ≤ t.host.lineNo

/-! ### Reset -/

/-- R361: the reset values of the registers of CORE for which the rule gives one. The values are the spec's decision
D16. -/
def Obligations.CoreResetValues : Prop :=
  State.reset.core.lineLen = 0 ∧ State.reset.core.effLen = 0 ∧ State.reset.core.ntok = 0 ∧
  State.reset.core.tok0 = ⟨0, 0⟩ ∧ State.reset.core.tok1 = ⟨0, 0⟩ ∧ State.reset.core.hit = false ∧
  State.reset.core.opc = 0 ∧ State.reset.core.opnd = 0x00000000 ∧ State.reset.core.opndPresent = false ∧
  State.reset.core.pstat = 0 ∧ State.reset.core.rec0 = 0x00 ∧ State.reset.core.rec1 = 0x00 ∧
  State.reset.core.status.done = false ∧ State.reset.core.status.ok = false ∧
  State.reset.core.status.emit = false ∧ State.reset.core.status.err = .none ∧
  State.reset.core.status.errTokIdx = false ∧ State.reset.core.status.errTokS = 0 ∧
  State.reset.core.status.errTokN = 0

/-- R364, R361, R362: a reset of CORE in the middle of a run keeps all HOST state (OUT among it), gives the registers
their reset values, and loses at most the line in progress. At the start of a run OUT and DIAG are empty and LINE_NO is
0. The next agent after such a reset is log entry 21. -/
def Obligations.CoreResetKeepsOutput : Prop :=
  (∀ s : State, s.coreReset.host = s.host ∧ s.coreReset.core = State.reset.core ∧
    (s.turn = .compile ∨ s.turn = .act → s.coreReset.turn = .deliver) ∧
    (s.turn ≠ .compile → s.turn ≠ .act → s.coreReset.turn = s.turn)) ∧
  State.reset.host.out = [] ∧ State.reset.host.diag = [] ∧ State.reset.host.lineNo = 0

/-! ### Invariants -/

/-- The three invariants hold after reset. The values of HOST state that R362 does not give are log entry 16. -/
def Obligations.ResetMeetsInvariants : Prop :=
  State.reset.BufferInv ∧ State.reset.ResultInv ∧ State.reset.OutputInv

/-- Every step keeps the line buffer's invariant (R22, R51, R123). The index bound is log entry 20. -/
def Obligations.StepKeepsBufferInvariant : Prop :=
  ∀ s t : State, s.BufferInv → step s = .next t → t.BufferInv

/-- Every step keeps the invariant of CORE's results (R24, R88, R191): in a state whose HOST may act, STATUS is done
and legal and names a token of the line, and REC0, REC1 are always a producible record. REC0 and REC1 over a failed
line are log entry 7. -/
def Obligations.StepKeepsResultInvariant : Prop :=
  ∀ s t : State, s.ResultInv → step s = .next t → t.ResultInv

/-- Every step keeps the invariant of OUT and DIAG (R35, R58, R88, R296, R297, R301): OUT is a sequence of producible
records, and exit status 1 goes with a reported fatal error. OUT as a byte string is log entry 6, the report log entry 27. -/
def Obligations.StepKeepsOutputInvariant : Prop :=
  ∀ s t : State, s.ResultInv → s.OutputInv → step s = .next t → t.OutputInv

/-- From states that meet the invariants no step faults (R325, R269). The fault is log entry 5. -/
def Obligations.InvariantStatesNeverFault : Prop :=
  ∀ (s : State) (f : Fault), s.BufferInv → s.ResultInv → step s ≠ .fault f

/-! ### Whole texts -/

/-- R296, R300: from any state that is about to deliver, with any text without 0x00 left, the machine runs three steps
a line and one more, and ends with OUT and DIAG grown by what `Assemble` says of the text's lines, LINE_NO by their
number, and exit status 0. Three steps a line are log entry 2, the cut of the text log entries 4 and 25. -/
def Obligations.RunIsAssemble : Prop :=
  ∀ s : State, s.turn = .deliver → (0 : Byte) ∉ s.host.input →
    ∃ t, Runs (3 * (linePieces s.host.input).length + 1) s t ∧ t.turn = .ended ∧
      t.host.out = s.host.out ++ (assembleLines s.host.lineNo (linePieces s.host.input)).1 ∧
      t.host.diag = s.host.diag ++ (assembleLines s.host.lineNo (linePieces s.host.input)).2 ∧
      t.host.lineNo = s.host.lineNo + (linePieces s.host.input).length ∧ t.host.exit = 0

/-- W9 (R21, R296): the output of a text whose first part is empty or ends with a terminator is the parts' outputs one
after the other, and the second part's diagnostics count on. The terminator is log entry 25. -/
def Obligations.AssembleSplitsAtLineEnd : Prop :=
  ∀ t1 t2 : List Byte, t1 = [] ∨ t1.getLast? = some 0x0A →
    (assembleText (t1 ++ t2)).1 = (assembleText t1).1 ++ (assembleText t2).1 ∧
    (assembleText (t1 ++ t2)).2 = (assembleText t1).2 ++
      (assembleText t2).2.map (fun d => { d with lineNo := d.lineNo + (linePieces t1).length })

/-- W8 (R296): OUT holds two bytes for each line that gives a record, DIAG one entry for each line that fails. -/
def Obligations.AssembleCounts : Prop :=
  ∀ (n : Nat) (lines : List (List Byte)),
    (assembleLines n lines).1.length
      = 2 * (lines.filter fun l => match lineResult l with | .record _ => true | _ => false).length ∧
    (assembleLines n lines).2.length
      = (lines.filter fun l => match lineResult l with | .failed _ _ => true | _ => false).length

/-- R292: the delivered lines of a text are the text, and every one of them is 1 to `LINE_MAX` bytes long. The cut is
log entry 4. -/
def Obligations.PiecesMakeUpText : Prop :=
  ∀ text : List Byte, (linePieces text).flatten = text ∧
    ∀ p ∈ linePieces text, 1 ≤ p.length ∧ p.length ≤ Config.lineMax
end

