-- ==== Sys2Proof/Laws/Memory.lean ====
section
/-! SUPPORT. The laws of the line buffer: what a read gives after a write, and that every operation keeps the canonical
form. -/

namespace Sys2Proof.Machine

theorem Memory.read_write_same (m : Memory) (a : Nat) (b : Byte) : Memory.read (Memory.write m a b) a = some b := by
  induction m with
  | nil => simp [Memory.write, Memory.read]
  | cons c m ih =>
    obtain ⟨a', b'⟩ := c
    unfold Memory.write
    split
    · simp [Memory.read]
    · split
      · simp [Memory.read]
      · simp [Memory.read, *]

theorem Memory.read_write_other (m : Memory) (a x : Nat) (b : Byte) (h : x ≠ a) :
    Memory.read (Memory.write m a b) x = Memory.read m x := by
  induction m with
  | nil => simp [Memory.write, Memory.read, h]
  | cons c m ih =>
    obtain ⟨a', b'⟩ := c
    unfold Memory.write
    split
    · simp [Memory.read, h]
    · split
      · subst a'
        simp [Memory.read, h]
      · simp [Memory.read, ih]

theorem Memory.mem_write (m : Memory) (a : Nat) (b : Byte) (c : Host.Cell) (h : c ∈ Memory.write m a b) :
    c = (a, b) ∨ c ∈ m := by
  induction m with
  | nil => exact .inl (by simpa [Memory.write] using h)
  | cons d m ih =>
    obtain ⟨a', b'⟩ := d
    unfold Memory.write at h
    split at h
    · simpa using h
    · split at h
      · rcases List.mem_cons.mp h with h | h <;> simp [h]
      · rcases List.mem_cons.mp h with h | h
        · simp [h]
        · rcases ih h with h | h <;> simp [h]

/-- A write keeps the canonical form. -/
theorem Memory.write_wf (m : Memory) (a : Nat) (b : Byte) (h : Memory.wf m) : Memory.wf (Memory.write m a b) := by
  induction m with
  | nil => simp [Memory.write, Memory.wf]
  | cons d m ih =>
    obtain ⟨a', b'⟩ := d
    obtain ⟨hd, hm⟩ := List.pairwise_cons.mp h
    unfold Memory.write
    split
    · rename_i hlt
      refine List.pairwise_cons.mpr ⟨fun c hc => ?_, h⟩
      rcases List.mem_cons.mp hc with rfl | hc
      · exact hlt
      · exact Nat.lt_trans hlt (hd c hc)
    · split
      · rename_i heq
        subst heq
        exact List.pairwise_cons.mpr ⟨hd, hm⟩
      · refine List.pairwise_cons.mpr ⟨fun c hc => ?_, ih hm⟩
        rcases Memory.mem_write m a b c hc with rfl | hc
        · simp only; omega
        · exact hd c hc

/-- Consecutive writes keep the canonical form. -/
theorem Memory.writeBytes_wf (m : Memory) (a : Nat) (bs : List Byte) (h : Memory.wf m) :
    Memory.wf (Memory.writeBytes m a bs) := by
  induction bs generalizing m a with
  | nil => exact h
  | cons b bs ih => exact ih _ _ (Memory.write_wf m a b h)

theorem Memory.read_writeBytes_other (m : Memory) (a x : Nat) (bs : List Byte) (h : x < a ∨ a + bs.length ≤ x) :
    Memory.read (Memory.writeBytes m a bs) x = Memory.read m x := by
  induction bs generalizing m a with
  | nil => rfl
  | cons b bs ih =>
    simp only [List.length_cons] at h
    rw [Memory.writeBytes, ih _ _ (by omega), Memory.read_write_other _ _ _ _ (by omega)]

theorem Memory.read_writeBytes_inside (m : Memory) (a i : Nat) (bs : List Byte) (h : i < bs.length) :
    Memory.read (Memory.writeBytes m a bs) (a + i) = bs[i]? := by
  induction bs generalizing m a i with
  | nil => simp at h
  | cons b bs ih =>
    cases i with
    | zero =>
      rw [Memory.writeBytes, Memory.read_writeBytes_other _ _ _ _ (by omega)]
      simpa using Memory.read_write_same m a b
    | succ i =>
      have := ih (Memory.write m a b) (a + 1) i (by simpa using h)
      rw [Memory.writeBytes, show a + (i + 1) = a + 1 + i by omega, this]
      simp

/-- `n` bytes can be read exactly when each has a value, and they are those values. -/
theorem Memory.readBytes_eq_some (m : Memory) (a n : Nat) (bs : List Byte) :
    Memory.readBytes m a n = some bs ↔ bs.length = n ∧ ∀ i, i < n → Memory.read m (a + i) = bs[i]? := by
  induction n generalizing a bs with
  | zero =>
    simp only [Memory.readBytes, Option.some.injEq]
    constructor
    · rintro rfl; simp
    · rintro ⟨h, -⟩; exact (List.length_eq_zero_iff.mp h).symm
  | succ n ih =>
    constructor
    · intro h
      simp only [Memory.readBytes] at h
      split at h
      · rename_i b bs' hb hbs
        obtain ⟨hl, hr⟩ := (ih _ _).mp hbs
        cases h
        refine ⟨by simp [hl], fun i hi => ?_⟩
        cases i with
        | zero => simpa using hb
        | succ i => simpa [Nat.add_assoc, Nat.add_comm 1 i] using hr i (by omega)
      · cases h
    · rintro ⟨hl, hr⟩
      cases bs with
      | nil => simp at hl
      | cons b bs =>
        have h0 : Memory.read m a = some b := by simpa using hr 0 (by omega)
        have h1 : Memory.readBytes m (a + 1) n = some bs :=
          (ih _ _).mpr ⟨by simpa using hl, fun i hi => by
            simpa [Nat.add_assoc, Nat.add_comm 1 i] using hr (i + 1) (by omega)⟩
        simp [Memory.readBytes, h0, h1]

theorem Memory.readBytes_length (m : Memory) (a n : Nat) (bs : List Byte) (h : Memory.readBytes m a n = some bs) :
    bs.length = n := ((Memory.readBytes_eq_some m a n bs).mp h).1

/-- What was written is read back. -/
theorem Memory.readBytes_writeBytes (m : Memory) (a : Nat) (bs : List Byte) :
    Memory.readBytes (Memory.writeBytes m a bs) a bs.length = some bs :=
  (Memory.readBytes_eq_some _ _ _ _).mpr ⟨rfl, fun i hi => Memory.read_writeBytes_inside m a i bs hi⟩

/-- Bytes that all have a value can be read. -/
theorem Memory.readBytes_isSome (m : Memory) (a n : Nat) (h : ∀ i, i < n → (Memory.read m (a + i)).isSome) :
    ∃ bs, Memory.readBytes m a n = some bs := by
  induction n generalizing a with
  | zero => exact ⟨[], rfl⟩
  | succ n ih =>
    obtain ⟨b, hb⟩ := Option.isSome_iff_exists.mp (h 0 (by omega))
    obtain ⟨bs, hbs⟩ := ih (a + 1) fun i hi => by
      simpa [Nat.add_assoc, Nat.add_comm 1 i] using h (i + 1) (by omega)
    exact ⟨b :: bs, by simp [Memory.readBytes, hbs, show Memory.read m a = some b by simpa using hb]⟩

/-- A line in place is the line in LINE. -/
theorem CoreRegs.lineBytes_present (r : CoreRegs) (bytes : List Byte) :
    (r.present bytes).lineBytes = some bytes := Memory.readBytes_writeBytes r.line 0 bytes

/-- The reset memory is in canonical form. -/
theorem Memory.reset_wf : Memory.wf State.reset.core.line := List.Pairwise.nil

end Sys2Proof.Machine
end

