-- ==== Sys2Proof/Laws/State.lean ====
section
/-! SUPPORT. What each update of the state does to each field, one lemma per field per update, so that no later proof
unfolds a record update. -/

namespace Sys2Proof.Machine

/-! ### `CoreRegs.present` -/

@[simp] theorem CoreRegs.present_line (r : CoreRegs) (bytes : List Byte) : (r.present bytes).line = Memory.writeBytes r.line 0 bytes := rfl
@[simp] theorem CoreRegs.present_lineLen (r : CoreRegs) (bytes : List Byte) : (r.present bytes).lineLen = bytes.length := rfl
@[simp] theorem CoreRegs.present_effLen (r : CoreRegs) (bytes : List Byte) : (r.present bytes).effLen = r.effLen := rfl
@[simp] theorem CoreRegs.present_ntok (r : CoreRegs) (bytes : List Byte) : (r.present bytes).ntok = r.ntok := rfl
@[simp] theorem CoreRegs.present_tok0 (r : CoreRegs) (bytes : List Byte) : (r.present bytes).tok0 = r.tok0 := rfl
@[simp] theorem CoreRegs.present_tok1 (r : CoreRegs) (bytes : List Byte) : (r.present bytes).tok1 = r.tok1 := rfl
@[simp] theorem CoreRegs.present_hit (r : CoreRegs) (bytes : List Byte) : (r.present bytes).hit = r.hit := rfl
@[simp] theorem CoreRegs.present_opc (r : CoreRegs) (bytes : List Byte) : (r.present bytes).opc = r.opc := rfl
@[simp] theorem CoreRegs.present_opnd (r : CoreRegs) (bytes : List Byte) : (r.present bytes).opnd = r.opnd := rfl
@[simp] theorem CoreRegs.present_opndPresent (r : CoreRegs) (bytes : List Byte) : (r.present bytes).opndPresent = r.opndPresent := rfl
@[simp] theorem CoreRegs.present_pstat (r : CoreRegs) (bytes : List Byte) : (r.present bytes).pstat = r.pstat := rfl
@[simp] theorem CoreRegs.present_rec0 (r : CoreRegs) (bytes : List Byte) : (r.present bytes).rec0 = r.rec0 := rfl
@[simp] theorem CoreRegs.present_rec1 (r : CoreRegs) (bytes : List Byte) : (r.present bytes).rec1 = r.rec1 := rfl
@[simp] theorem CoreRegs.present_status (r : CoreRegs) (bytes : List Byte) : (r.present bytes).status = r.status.started := rfl

/-! ### `CoreRegs.clearTransients` -/

@[simp] theorem CoreRegs.clearTransients_line (r : CoreRegs) : (r.clearTransients).line = r.line := rfl
@[simp] theorem CoreRegs.clearTransients_lineLen (r : CoreRegs) : (r.clearTransients).lineLen = r.lineLen := rfl
@[simp] theorem CoreRegs.clearTransients_effLen (r : CoreRegs) : (r.clearTransients).effLen = r.effLen := rfl
@[simp] theorem CoreRegs.clearTransients_ntok (r : CoreRegs) : (r.clearTransients).ntok = r.ntok := rfl
@[simp] theorem CoreRegs.clearTransients_tok0 (r : CoreRegs) : (r.clearTransients).tok0 = r.tok0 := rfl
@[simp] theorem CoreRegs.clearTransients_tok1 (r : CoreRegs) : (r.clearTransients).tok1 = r.tok1 := rfl
@[simp] theorem CoreRegs.clearTransients_hit (r : CoreRegs) : (r.clearTransients).hit = false := rfl
@[simp] theorem CoreRegs.clearTransients_opc (r : CoreRegs) : (r.clearTransients).opc = r.opc := rfl
@[simp] theorem CoreRegs.clearTransients_opnd (r : CoreRegs) : (r.clearTransients).opnd = absentOperand := rfl
@[simp] theorem CoreRegs.clearTransients_opndPresent (r : CoreRegs) : (r.clearTransients).opndPresent = false := rfl
@[simp] theorem CoreRegs.clearTransients_pstat (r : CoreRegs) : (r.clearTransients).pstat = 0 := rfl
@[simp] theorem CoreRegs.clearTransients_rec0 (r : CoreRegs) : (r.clearTransients).rec0 = r.rec0 := rfl
@[simp] theorem CoreRegs.clearTransients_rec1 (r : CoreRegs) : (r.clearTransients).rec1 = r.rec1 := rfl
@[simp] theorem CoreRegs.clearTransients_status (r : CoreRegs) : (r.clearTransients).status = r.status := rfl

/-! ### `CoreRegs.putEffLen` -/

@[simp] theorem CoreRegs.putEffLen_line (r : CoreRegs) (n : Nat) : (r.putEffLen n).line = r.line := rfl
@[simp] theorem CoreRegs.putEffLen_lineLen (r : CoreRegs) (n : Nat) : (r.putEffLen n).lineLen = r.lineLen := rfl
@[simp] theorem CoreRegs.putEffLen_effLen (r : CoreRegs) (n : Nat) : (r.putEffLen n).effLen = n := rfl
@[simp] theorem CoreRegs.putEffLen_ntok (r : CoreRegs) (n : Nat) : (r.putEffLen n).ntok = r.ntok := rfl
@[simp] theorem CoreRegs.putEffLen_tok0 (r : CoreRegs) (n : Nat) : (r.putEffLen n).tok0 = r.tok0 := rfl
@[simp] theorem CoreRegs.putEffLen_tok1 (r : CoreRegs) (n : Nat) : (r.putEffLen n).tok1 = r.tok1 := rfl
@[simp] theorem CoreRegs.putEffLen_hit (r : CoreRegs) (n : Nat) : (r.putEffLen n).hit = r.hit := rfl
@[simp] theorem CoreRegs.putEffLen_opc (r : CoreRegs) (n : Nat) : (r.putEffLen n).opc = r.opc := rfl
@[simp] theorem CoreRegs.putEffLen_opnd (r : CoreRegs) (n : Nat) : (r.putEffLen n).opnd = r.opnd := rfl
@[simp] theorem CoreRegs.putEffLen_opndPresent (r : CoreRegs) (n : Nat) : (r.putEffLen n).opndPresent = r.opndPresent := rfl
@[simp] theorem CoreRegs.putEffLen_pstat (r : CoreRegs) (n : Nat) : (r.putEffLen n).pstat = r.pstat := rfl
@[simp] theorem CoreRegs.putEffLen_rec0 (r : CoreRegs) (n : Nat) : (r.putEffLen n).rec0 = r.rec0 := rfl
@[simp] theorem CoreRegs.putEffLen_rec1 (r : CoreRegs) (n : Nat) : (r.putEffLen n).rec1 = r.rec1 := rfl
@[simp] theorem CoreRegs.putEffLen_status (r : CoreRegs) (n : Nat) : (r.putEffLen n).status = r.status := rfl

/-! ### `CoreRegs.putHit` -/

@[simp] theorem CoreRegs.putHit_line (r : CoreRegs) (k : OpOrdinal) : (r.putHit k).line = r.line := rfl
@[simp] theorem CoreRegs.putHit_lineLen (r : CoreRegs) (k : OpOrdinal) : (r.putHit k).lineLen = r.lineLen := rfl
@[simp] theorem CoreRegs.putHit_effLen (r : CoreRegs) (k : OpOrdinal) : (r.putHit k).effLen = r.effLen := rfl
@[simp] theorem CoreRegs.putHit_ntok (r : CoreRegs) (k : OpOrdinal) : (r.putHit k).ntok = r.ntok := rfl
@[simp] theorem CoreRegs.putHit_tok0 (r : CoreRegs) (k : OpOrdinal) : (r.putHit k).tok0 = r.tok0 := rfl
@[simp] theorem CoreRegs.putHit_tok1 (r : CoreRegs) (k : OpOrdinal) : (r.putHit k).tok1 = r.tok1 := rfl
@[simp] theorem CoreRegs.putHit_hit (r : CoreRegs) (k : OpOrdinal) : (r.putHit k).hit = true := rfl
@[simp] theorem CoreRegs.putHit_opc (r : CoreRegs) (k : OpOrdinal) : (r.putHit k).opc = k := rfl
@[simp] theorem CoreRegs.putHit_opnd (r : CoreRegs) (k : OpOrdinal) : (r.putHit k).opnd = r.opnd := rfl
@[simp] theorem CoreRegs.putHit_opndPresent (r : CoreRegs) (k : OpOrdinal) : (r.putHit k).opndPresent = r.opndPresent := rfl
@[simp] theorem CoreRegs.putHit_pstat (r : CoreRegs) (k : OpOrdinal) : (r.putHit k).pstat = r.pstat := rfl
@[simp] theorem CoreRegs.putHit_rec0 (r : CoreRegs) (k : OpOrdinal) : (r.putHit k).rec0 = r.rec0 := rfl
@[simp] theorem CoreRegs.putHit_rec1 (r : CoreRegs) (k : OpOrdinal) : (r.putHit k).rec1 = r.rec1 := rfl
@[simp] theorem CoreRegs.putHit_status (r : CoreRegs) (k : OpOrdinal) : (r.putHit k).status = r.status := rfl

/-! ### `CoreRegs.putOperand` -/

@[simp] theorem CoreRegs.putOperand_line (r : CoreRegs) (v : Word) : (r.putOperand v).line = r.line := rfl
@[simp] theorem CoreRegs.putOperand_lineLen (r : CoreRegs) (v : Word) : (r.putOperand v).lineLen = r.lineLen := rfl
@[simp] theorem CoreRegs.putOperand_effLen (r : CoreRegs) (v : Word) : (r.putOperand v).effLen = r.effLen := rfl
@[simp] theorem CoreRegs.putOperand_ntok (r : CoreRegs) (v : Word) : (r.putOperand v).ntok = r.ntok := rfl
@[simp] theorem CoreRegs.putOperand_tok0 (r : CoreRegs) (v : Word) : (r.putOperand v).tok0 = r.tok0 := rfl
@[simp] theorem CoreRegs.putOperand_tok1 (r : CoreRegs) (v : Word) : (r.putOperand v).tok1 = r.tok1 := rfl
@[simp] theorem CoreRegs.putOperand_hit (r : CoreRegs) (v : Word) : (r.putOperand v).hit = r.hit := rfl
@[simp] theorem CoreRegs.putOperand_opc (r : CoreRegs) (v : Word) : (r.putOperand v).opc = r.opc := rfl
@[simp] theorem CoreRegs.putOperand_opnd (r : CoreRegs) (v : Word) : (r.putOperand v).opnd = v := rfl
@[simp] theorem CoreRegs.putOperand_opndPresent (r : CoreRegs) (v : Word) : (r.putOperand v).opndPresent = true := rfl
@[simp] theorem CoreRegs.putOperand_pstat (r : CoreRegs) (v : Word) : (r.putOperand v).pstat = 0 := rfl
@[simp] theorem CoreRegs.putOperand_rec0 (r : CoreRegs) (v : Word) : (r.putOperand v).rec0 = r.rec0 := rfl
@[simp] theorem CoreRegs.putOperand_rec1 (r : CoreRegs) (v : Word) : (r.putOperand v).rec1 = r.rec1 := rfl
@[simp] theorem CoreRegs.putOperand_status (r : CoreRegs) (v : Word) : (r.putOperand v).status = r.status := rfl

/-! ### `CoreRegs.putAbsent` -/

@[simp] theorem CoreRegs.putAbsent_line (r : CoreRegs) : (r.putAbsent).line = r.line := rfl
@[simp] theorem CoreRegs.putAbsent_lineLen (r : CoreRegs) : (r.putAbsent).lineLen = r.lineLen := rfl
@[simp] theorem CoreRegs.putAbsent_effLen (r : CoreRegs) : (r.putAbsent).effLen = r.effLen := rfl
@[simp] theorem CoreRegs.putAbsent_ntok (r : CoreRegs) : (r.putAbsent).ntok = r.ntok := rfl
@[simp] theorem CoreRegs.putAbsent_tok0 (r : CoreRegs) : (r.putAbsent).tok0 = r.tok0 := rfl
@[simp] theorem CoreRegs.putAbsent_tok1 (r : CoreRegs) : (r.putAbsent).tok1 = r.tok1 := rfl
@[simp] theorem CoreRegs.putAbsent_hit (r : CoreRegs) : (r.putAbsent).hit = r.hit := rfl
@[simp] theorem CoreRegs.putAbsent_opc (r : CoreRegs) : (r.putAbsent).opc = r.opc := rfl
@[simp] theorem CoreRegs.putAbsent_opnd (r : CoreRegs) : (r.putAbsent).opnd = absentOperand := rfl
@[simp] theorem CoreRegs.putAbsent_opndPresent (r : CoreRegs) : (r.putAbsent).opndPresent = false := rfl
@[simp] theorem CoreRegs.putAbsent_pstat (r : CoreRegs) : (r.putAbsent).pstat = r.pstat := rfl
@[simp] theorem CoreRegs.putAbsent_rec0 (r : CoreRegs) : (r.putAbsent).rec0 = r.rec0 := rfl
@[simp] theorem CoreRegs.putAbsent_rec1 (r : CoreRegs) : (r.putAbsent).rec1 = r.rec1 := rfl
@[simp] theorem CoreRegs.putAbsent_status (r : CoreRegs) : (r.putAbsent).status = r.status := rfl

/-! ### `CoreRegs.putPstat` -/

@[simp] theorem CoreRegs.putPstat_line (r : CoreRegs) (p : BitVec 2) : (r.putPstat p).line = r.line := rfl
@[simp] theorem CoreRegs.putPstat_lineLen (r : CoreRegs) (p : BitVec 2) : (r.putPstat p).lineLen = r.lineLen := rfl
@[simp] theorem CoreRegs.putPstat_effLen (r : CoreRegs) (p : BitVec 2) : (r.putPstat p).effLen = r.effLen := rfl
@[simp] theorem CoreRegs.putPstat_ntok (r : CoreRegs) (p : BitVec 2) : (r.putPstat p).ntok = r.ntok := rfl
@[simp] theorem CoreRegs.putPstat_tok0 (r : CoreRegs) (p : BitVec 2) : (r.putPstat p).tok0 = r.tok0 := rfl
@[simp] theorem CoreRegs.putPstat_tok1 (r : CoreRegs) (p : BitVec 2) : (r.putPstat p).tok1 = r.tok1 := rfl
@[simp] theorem CoreRegs.putPstat_hit (r : CoreRegs) (p : BitVec 2) : (r.putPstat p).hit = r.hit := rfl
@[simp] theorem CoreRegs.putPstat_opc (r : CoreRegs) (p : BitVec 2) : (r.putPstat p).opc = r.opc := rfl
@[simp] theorem CoreRegs.putPstat_opnd (r : CoreRegs) (p : BitVec 2) : (r.putPstat p).opnd = r.opnd := rfl
@[simp] theorem CoreRegs.putPstat_opndPresent (r : CoreRegs) (p : BitVec 2) : (r.putPstat p).opndPresent = r.opndPresent := rfl
@[simp] theorem CoreRegs.putPstat_pstat (r : CoreRegs) (p : BitVec 2) : (r.putPstat p).pstat = p := rfl
@[simp] theorem CoreRegs.putPstat_rec0 (r : CoreRegs) (p : BitVec 2) : (r.putPstat p).rec0 = r.rec0 := rfl
@[simp] theorem CoreRegs.putPstat_rec1 (r : CoreRegs) (p : BitVec 2) : (r.putPstat p).rec1 = r.rec1 := rfl
@[simp] theorem CoreRegs.putPstat_status (r : CoreRegs) (p : BitVec 2) : (r.putPstat p).status = r.status := rfl

/-! ### `CoreRegs.putRecord` -/

@[simp] theorem CoreRegs.putRecord_line (r : CoreRegs) (b : Byte × Byte) : (r.putRecord b).line = r.line := rfl
@[simp] theorem CoreRegs.putRecord_lineLen (r : CoreRegs) (b : Byte × Byte) : (r.putRecord b).lineLen = r.lineLen := rfl
@[simp] theorem CoreRegs.putRecord_effLen (r : CoreRegs) (b : Byte × Byte) : (r.putRecord b).effLen = r.effLen := rfl
@[simp] theorem CoreRegs.putRecord_ntok (r : CoreRegs) (b : Byte × Byte) : (r.putRecord b).ntok = r.ntok := rfl
@[simp] theorem CoreRegs.putRecord_tok0 (r : CoreRegs) (b : Byte × Byte) : (r.putRecord b).tok0 = r.tok0 := rfl
@[simp] theorem CoreRegs.putRecord_tok1 (r : CoreRegs) (b : Byte × Byte) : (r.putRecord b).tok1 = r.tok1 := rfl
@[simp] theorem CoreRegs.putRecord_hit (r : CoreRegs) (b : Byte × Byte) : (r.putRecord b).hit = r.hit := rfl
@[simp] theorem CoreRegs.putRecord_opc (r : CoreRegs) (b : Byte × Byte) : (r.putRecord b).opc = r.opc := rfl
@[simp] theorem CoreRegs.putRecord_opnd (r : CoreRegs) (b : Byte × Byte) : (r.putRecord b).opnd = r.opnd := rfl
@[simp] theorem CoreRegs.putRecord_opndPresent (r : CoreRegs) (b : Byte × Byte) : (r.putRecord b).opndPresent = r.opndPresent := rfl
@[simp] theorem CoreRegs.putRecord_pstat (r : CoreRegs) (b : Byte × Byte) : (r.putRecord b).pstat = r.pstat := rfl
@[simp] theorem CoreRegs.putRecord_rec0 (r : CoreRegs) (b : Byte × Byte) : (r.putRecord b).rec0 = b.1 := rfl
@[simp] theorem CoreRegs.putRecord_rec1 (r : CoreRegs) (b : Byte × Byte) : (r.putRecord b).rec1 = b.2 := rfl
@[simp] theorem CoreRegs.putRecord_status (r : CoreRegs) (b : Byte × Byte) : (r.putRecord b).status = r.status := rfl

/-! ### `CoreRegs.putStatus` -/

@[simp] theorem CoreRegs.putStatus_line (r : CoreRegs) (st : Status) : (r.putStatus st).line = r.line := rfl
@[simp] theorem CoreRegs.putStatus_lineLen (r : CoreRegs) (st : Status) : (r.putStatus st).lineLen = r.lineLen := rfl
@[simp] theorem CoreRegs.putStatus_effLen (r : CoreRegs) (st : Status) : (r.putStatus st).effLen = r.effLen := rfl
@[simp] theorem CoreRegs.putStatus_ntok (r : CoreRegs) (st : Status) : (r.putStatus st).ntok = r.ntok := rfl
@[simp] theorem CoreRegs.putStatus_tok0 (r : CoreRegs) (st : Status) : (r.putStatus st).tok0 = r.tok0 := rfl
@[simp] theorem CoreRegs.putStatus_tok1 (r : CoreRegs) (st : Status) : (r.putStatus st).tok1 = r.tok1 := rfl
@[simp] theorem CoreRegs.putStatus_hit (r : CoreRegs) (st : Status) : (r.putStatus st).hit = r.hit := rfl
@[simp] theorem CoreRegs.putStatus_opc (r : CoreRegs) (st : Status) : (r.putStatus st).opc = r.opc := rfl
@[simp] theorem CoreRegs.putStatus_opnd (r : CoreRegs) (st : Status) : (r.putStatus st).opnd = r.opnd := rfl
@[simp] theorem CoreRegs.putStatus_opndPresent (r : CoreRegs) (st : Status) : (r.putStatus st).opndPresent = r.opndPresent := rfl
@[simp] theorem CoreRegs.putStatus_pstat (r : CoreRegs) (st : Status) : (r.putStatus st).pstat = r.pstat := rfl
@[simp] theorem CoreRegs.putStatus_rec0 (r : CoreRegs) (st : Status) : (r.putStatus st).rec0 = r.rec0 := rfl
@[simp] theorem CoreRegs.putStatus_rec1 (r : CoreRegs) (st : Status) : (r.putStatus st).rec1 = r.rec1 := rfl
@[simp] theorem CoreRegs.putStatus_status (r : CoreRegs) (st : Status) : (r.putStatus st).status = st := rfl

/-! ### `CoreRegs.putTokens` and `CoreRegs.scanned` -/

@[simp] theorem CoreRegs.putTokens_line (r : CoreRegs) (ps : List Span) : (r.putTokens ps).line = r.line := by
  rcases ps with _ | ⟨p, _ | ⟨q, ps⟩⟩ <;> rfl

@[simp] theorem CoreRegs.putTokens_lineLen (r : CoreRegs) (ps : List Span) : (r.putTokens ps).lineLen = r.lineLen := by
  rcases ps with _ | ⟨p, _ | ⟨q, ps⟩⟩ <;> rfl

@[simp] theorem CoreRegs.putTokens_effLen (r : CoreRegs) (ps : List Span) : (r.putTokens ps).effLen = r.effLen := by
  rcases ps with _ | ⟨p, _ | ⟨q, ps⟩⟩ <;> rfl

@[simp] theorem CoreRegs.putTokens_ntok (r : CoreRegs) (ps : List Span) : (r.putTokens ps).ntok = BitVec.ofNat 2 (min 2 ps.length) := by
  rcases ps with _ | ⟨p, _ | ⟨q, ps⟩⟩
  · rfl
  · rfl
  · simp [CoreRegs.putTokens]

@[simp] theorem CoreRegs.putTokens_tok0 (r : CoreRegs) (ps : List Span) : (r.putTokens ps).tok0 = ps[0]?.getD r.tok0 := by
  rcases ps with _ | ⟨p, _ | ⟨q, ps⟩⟩ <;> rfl

@[simp] theorem CoreRegs.putTokens_tok1 (r : CoreRegs) (ps : List Span) : (r.putTokens ps).tok1 = ps[1]?.getD r.tok1 := by
  rcases ps with _ | ⟨p, _ | ⟨q, ps⟩⟩ <;> rfl

@[simp] theorem CoreRegs.putTokens_hit (r : CoreRegs) (ps : List Span) : (r.putTokens ps).hit = r.hit := by
  rcases ps with _ | ⟨p, _ | ⟨q, ps⟩⟩ <;> rfl

@[simp] theorem CoreRegs.putTokens_opc (r : CoreRegs) (ps : List Span) : (r.putTokens ps).opc = r.opc := by
  rcases ps with _ | ⟨p, _ | ⟨q, ps⟩⟩ <;> rfl

@[simp] theorem CoreRegs.putTokens_opnd (r : CoreRegs) (ps : List Span) : (r.putTokens ps).opnd = r.opnd := by
  rcases ps with _ | ⟨p, _ | ⟨q, ps⟩⟩ <;> rfl

@[simp] theorem CoreRegs.putTokens_opndPresent (r : CoreRegs) (ps : List Span) : (r.putTokens ps).opndPresent = r.opndPresent := by
  rcases ps with _ | ⟨p, _ | ⟨q, ps⟩⟩ <;> rfl

@[simp] theorem CoreRegs.putTokens_pstat (r : CoreRegs) (ps : List Span) : (r.putTokens ps).pstat = r.pstat := by
  rcases ps with _ | ⟨p, _ | ⟨q, ps⟩⟩ <;> rfl

@[simp] theorem CoreRegs.putTokens_rec0 (r : CoreRegs) (ps : List Span) : (r.putTokens ps).rec0 = r.rec0 := by
  rcases ps with _ | ⟨p, _ | ⟨q, ps⟩⟩ <;> rfl

@[simp] theorem CoreRegs.putTokens_rec1 (r : CoreRegs) (ps : List Span) : (r.putTokens ps).rec1 = r.rec1 := by
  rcases ps with _ | ⟨p, _ | ⟨q, ps⟩⟩ <;> rfl

@[simp] theorem CoreRegs.putTokens_status (r : CoreRegs) (ps : List Span) : (r.putTokens ps).status = r.status := by
  rcases ps with _ | ⟨p, _ | ⟨q, ps⟩⟩ <;> rfl

@[simp] theorem CoreRegs.scanned_line (r : CoreRegs) (l : List Byte) : (r.scanned l).line = r.line := by
  simp [CoreRegs.scanned]

@[simp] theorem CoreRegs.scanned_lineLen (r : CoreRegs) (l : List Byte) : (r.scanned l).lineLen = r.lineLen := by
  simp [CoreRegs.scanned]

@[simp] theorem CoreRegs.scanned_effLen (r : CoreRegs) (l : List Byte) : (r.scanned l).effLen = Sys2Proof.effLen l := by
  simp [CoreRegs.scanned]

@[simp] theorem CoreRegs.scanned_ntok (r : CoreRegs) (l : List Byte) : (r.scanned l).ntok = BitVec.ofNat 2 (min 2 (tokens l).length) := by
  simp [CoreRegs.scanned]

@[simp] theorem CoreRegs.scanned_tok0 (r : CoreRegs) (l : List Byte) : (r.scanned l).tok0 = (tokens l)[0]?.getD r.tok0 := by
  simp [CoreRegs.scanned]

@[simp] theorem CoreRegs.scanned_tok1 (r : CoreRegs) (l : List Byte) : (r.scanned l).tok1 = (tokens l)[1]?.getD r.tok1 := by
  simp [CoreRegs.scanned]

@[simp] theorem CoreRegs.scanned_hit (r : CoreRegs) (l : List Byte) : (r.scanned l).hit = false := by
  simp [CoreRegs.scanned]

@[simp] theorem CoreRegs.scanned_opc (r : CoreRegs) (l : List Byte) : (r.scanned l).opc = r.opc := by
  simp [CoreRegs.scanned]

@[simp] theorem CoreRegs.scanned_opnd (r : CoreRegs) (l : List Byte) : (r.scanned l).opnd = absentOperand := by
  simp [CoreRegs.scanned]

@[simp] theorem CoreRegs.scanned_opndPresent (r : CoreRegs) (l : List Byte) : (r.scanned l).opndPresent = false := by
  simp [CoreRegs.scanned]

@[simp] theorem CoreRegs.scanned_pstat (r : CoreRegs) (l : List Byte) : (r.scanned l).pstat = 0 := by
  simp [CoreRegs.scanned]

@[simp] theorem CoreRegs.scanned_rec0 (r : CoreRegs) (l : List Byte) : (r.scanned l).rec0 = r.rec0 := by
  simp [CoreRegs.scanned]

@[simp] theorem CoreRegs.scanned_rec1 (r : CoreRegs) (l : List Byte) : (r.scanned l).rec1 = r.rec1 := by
  simp [CoreRegs.scanned]

@[simp] theorem CoreRegs.scanned_status (r : CoreRegs) (l : List Byte) : (r.scanned l).status = r.status := by
  simp [CoreRegs.scanned]

/-! ### `Status` -/

@[simp] theorem Status.started_done (st : Status) : st.started.done = false := rfl
@[simp] theorem Status.started_ok (st : Status) : st.started.ok = st.ok := rfl
@[simp] theorem Status.started_emit (st : Status) : st.started.emit = st.emit := rfl
@[simp] theorem Status.started_err (st : Status) : st.started.err = st.err := rfl
@[simp] theorem Status.started_errTokIdx (st : Status) : st.started.errTokIdx = st.errTokIdx := rfl
@[simp] theorem Status.started_errTokS (st : Status) : st.started.errTokS = st.errTokS := rfl
@[simp] theorem Status.started_errTokN (st : Status) : st.started.errTokN = st.errTokN := rfl
@[simp] theorem Status.success_done (e : Bool) (n : Nat) : (Status.success e n).done = true := rfl
@[simp] theorem Status.success_ok (e : Bool) (n : Nat) : (Status.success e n).ok = true := rfl
@[simp] theorem Status.success_emit (e : Bool) (n : Nat) : (Status.success e n).emit = e := rfl
@[simp] theorem Status.success_err (e : Bool) (n : Nat) : (Status.success e n).err = .none := rfl
@[simp] theorem Status.failure_done (c : ErrCode) (b : Bool) (p : Span) : (Status.failure c b p).done = true := rfl
@[simp] theorem Status.failure_ok (c : ErrCode) (b : Bool) (p : Span) : (Status.failure c b p).ok = false := rfl
@[simp] theorem Status.failure_emit (c : ErrCode) (b : Bool) (p : Span) : (Status.failure c b p).emit = false := rfl
@[simp] theorem Status.failure_err (c : ErrCode) (b : Bool) (p : Span) : (Status.failure c b p).err = c := rfl
@[simp] theorem Status.failure_errTokIdx (c : ErrCode) (b : Bool) (p : Span) : (Status.failure c b p).errTokIdx = b := rfl
@[simp] theorem Status.failure_errTokS (c : ErrCode) (b : Bool) (p : Span) : (Status.failure c b p).errTokS = p.start := rfl
@[simp] theorem Status.failure_errTokN (c : ErrCode) (b : Bool) (p : Span) : (Status.failure c b p).errTokN = p.len := rfl

/-! ### `raise` -/

@[simp] theorem raise_core (c : ErrCode) (b : Bool) (s : State) : (raise c b s).core = s.core.putStatus (Status.failure c b (if b then s.core.tok1 else s.core.tok0)) := rfl
@[simp] theorem raise_turn (c : ErrCode) (b : Bool) (s : State) : (raise c b s).turn = .act := rfl
@[simp] theorem raise_draws (c : ErrCode) (b : Bool) (s : State) : (raise c b s).draws = s.draws := rfl
@[simp] theorem raise_host (c : ErrCode) (b : Bool) (s : State) : (raise c b s).host = s.host := rfl

/-! ### `emitRecord` -/

@[simp] theorem emitRecord_core (b : Byte × Byte) (s : State) : (emitRecord b s).core = (s.core.putRecord b).putStatus (Status.success true s.draws) := rfl
@[simp] theorem emitRecord_turn (b : Byte × Byte) (s : State) : (emitRecord b s).turn = .act := rfl
@[simp] theorem emitRecord_draws (b : Byte × Byte) (s : State) : (emitRecord b s).draws = s.draws + 1 := rfl
@[simp] theorem emitRecord_host (b : Byte × Byte) (s : State) : (emitRecord b s).host = s.host := rfl

/-! ### `finishBlank` -/

@[simp] theorem finishBlank_core (s : State) : (finishBlank s).core = s.core.putStatus (Status.success false s.draws) := rfl
@[simp] theorem finishBlank_turn (s : State) : (finishBlank s).turn = .act := rfl
@[simp] theorem finishBlank_draws (s : State) : (finishBlank s).draws = s.draws + 1 := rfl
@[simp] theorem finishBlank_host (s : State) : (finishBlank s).host = s.host := rfl

/-! ### `fatalExit` -/

@[simp] theorem fatalExit_core (c : FatalCause) (s : State) : (fatalExit c s).core = s.core := rfl
@[simp] theorem fatalExit_turn (c : FatalCause) (s : State) : (fatalExit c s).turn = .ended := rfl
@[simp] theorem fatalExit_draws (c : FatalCause) (s : State) : (fatalExit c s).draws = s.draws + 1 := rfl
@[simp] theorem fatalExit_host_lineNo (c : FatalCause) (s : State) : (fatalExit c s).host.lineNo = s.host.lineNo := rfl
@[simp] theorem fatalExit_host_fileName (c : FatalCause) (s : State) : (fatalExit c s).host.fileName = s.host.fileName := rfl
@[simp] theorem fatalExit_host_progName (c : FatalCause) (s : State) : (fatalExit c s).host.progName = s.host.progName := rfl
@[simp] theorem fatalExit_host_out (c : FatalCause) (s : State) : (fatalExit c s).host.out = Config.freeOut s.draws := rfl
@[simp] theorem fatalExit_host_diag (c : FatalCause) (s : State) : (fatalExit c s).host.diag = s.host.diag := rfl
@[simp] theorem fatalExit_host_exit (c : FatalCause) (s : State) : (fatalExit c s).host.exit = 1 := rfl
@[simp] theorem fatalExit_host_report (c : FatalCause) (s : State) : (fatalExit c s).host.report = some c := rfl
@[simp] theorem fatalExit_host_outPath (c : FatalCause) (s : State) : (fatalExit c s).host.outPath = s.host.outPath := rfl
@[simp] theorem fatalExit_host_input (c : FatalCause) (s : State) : (fatalExit c s).host.input = s.host.input := rfl
@[simp] theorem fatalExit_host_handles (c : FatalCause) (s : State) : (fatalExit c s).host.handles = false := rfl
@[simp] theorem fatalExit_host_args (c : FatalCause) (s : State) : (fatalExit c s).host.args = s.host.args := rfl
@[simp] theorem fatalExit_host_sourceFile (c : FatalCause) (s : State) : (fatalExit c s).host.sourceFile = s.host.sourceFile := rfl
@[simp] theorem fatalExit_host_outOpens (c : FatalCause) (s : State) : (fatalExit c s).host.outOpens = s.host.outOpens := rfl

/-! ### `enterLoop` -/

@[simp] theorem enterLoop_core (o i text : List Byte) (s : State) : (enterLoop o i text s).core = s.core := rfl
@[simp] theorem enterLoop_turn (o i text : List Byte) (s : State) : (enterLoop o i text s).turn = .deliver := rfl
@[simp] theorem enterLoop_draws (o i text : List Byte) (s : State) : (enterLoop o i text s).draws = s.draws := rfl
@[simp] theorem enterLoop_host_lineNo (o i text : List Byte) (s : State) : (enterLoop o i text s).host.lineNo = 0 := rfl
@[simp] theorem enterLoop_host_fileName (o i text : List Byte) (s : State) : (enterLoop o i text s).host.fileName = i := rfl
@[simp] theorem enterLoop_host_progName (o i text : List Byte) (s : State) : (enterLoop o i text s).host.progName = s.host.progName := rfl
@[simp] theorem enterLoop_host_out (o i text : List Byte) (s : State) : (enterLoop o i text s).host.out = [] := rfl
@[simp] theorem enterLoop_host_diag (o i text : List Byte) (s : State) : (enterLoop o i text s).host.diag = [] := rfl
@[simp] theorem enterLoop_host_exit (o i text : List Byte) (s : State) : (enterLoop o i text s).host.exit = 0 := rfl
@[simp] theorem enterLoop_host_report (o i text : List Byte) (s : State) : (enterLoop o i text s).host.report = none := rfl
@[simp] theorem enterLoop_host_outPath (o i text : List Byte) (s : State) : (enterLoop o i text s).host.outPath = o := rfl
@[simp] theorem enterLoop_host_input (o i text : List Byte) (s : State) : (enterLoop o i text s).host.input = text := rfl
@[simp] theorem enterLoop_host_handles (o i text : List Byte) (s : State) : (enterLoop o i text s).host.handles = true := rfl
@[simp] theorem enterLoop_host_args (o i text : List Byte) (s : State) : (enterLoop o i text s).host.args = s.host.args := rfl
@[simp] theorem enterLoop_host_sourceFile (o i text : List Byte) (s : State) : (enterLoop o i text s).host.sourceFile = s.host.sourceFile := rfl
@[simp] theorem enterLoop_host_outOpens (o i text : List Byte) (s : State) : (enterLoop o i text s).host.outOpens = s.host.outOpens := rfl

/-! ### `deliverPiece` -/

@[simp] theorem deliverPiece_core (p rest : List Byte) (s : State) : (deliverPiece p rest s).core = s.core.present p := rfl
@[simp] theorem deliverPiece_turn (p rest : List Byte) (s : State) : (deliverPiece p rest s).turn = .compile := rfl
@[simp] theorem deliverPiece_draws (p rest : List Byte) (s : State) : (deliverPiece p rest s).draws = s.draws := rfl
@[simp] theorem deliverPiece_host_lineNo (p rest : List Byte) (s : State) : (deliverPiece p rest s).host.lineNo = s.host.lineNo + 1 := rfl
@[simp] theorem deliverPiece_host_fileName (p rest : List Byte) (s : State) : (deliverPiece p rest s).host.fileName = s.host.fileName := rfl
@[simp] theorem deliverPiece_host_progName (p rest : List Byte) (s : State) : (deliverPiece p rest s).host.progName = s.host.progName := rfl
@[simp] theorem deliverPiece_host_out (p rest : List Byte) (s : State) : (deliverPiece p rest s).host.out = s.host.out := rfl
@[simp] theorem deliverPiece_host_diag (p rest : List Byte) (s : State) : (deliverPiece p rest s).host.diag = s.host.diag := rfl
@[simp] theorem deliverPiece_host_exit (p rest : List Byte) (s : State) : (deliverPiece p rest s).host.exit = s.host.exit := rfl
@[simp] theorem deliverPiece_host_report (p rest : List Byte) (s : State) : (deliverPiece p rest s).host.report = s.host.report := rfl
@[simp] theorem deliverPiece_host_outPath (p rest : List Byte) (s : State) : (deliverPiece p rest s).host.outPath = s.host.outPath := rfl
@[simp] theorem deliverPiece_host_input (p rest : List Byte) (s : State) : (deliverPiece p rest s).host.input = rest := rfl
@[simp] theorem deliverPiece_host_handles (p rest : List Byte) (s : State) : (deliverPiece p rest s).host.handles = s.host.handles := rfl
@[simp] theorem deliverPiece_host_args (p rest : List Byte) (s : State) : (deliverPiece p rest s).host.args = s.host.args := rfl
@[simp] theorem deliverPiece_host_sourceFile (p rest : List Byte) (s : State) : (deliverPiece p rest s).host.sourceFile = s.host.sourceFile := rfl
@[simp] theorem deliverPiece_host_outOpens (p rest : List Byte) (s : State) : (deliverPiece p rest s).host.outOpens = s.host.outOpens := rfl

/-! ### `finishRun` -/

@[simp] theorem finishRun_core (s : State) : (finishRun s).core = s.core := rfl
@[simp] theorem finishRun_turn (s : State) : (finishRun s).turn = .ended := rfl
@[simp] theorem finishRun_draws (s : State) : (finishRun s).draws = s.draws := rfl
@[simp] theorem finishRun_host_lineNo (s : State) : (finishRun s).host.lineNo = s.host.lineNo := rfl
@[simp] theorem finishRun_host_fileName (s : State) : (finishRun s).host.fileName = s.host.fileName := rfl
@[simp] theorem finishRun_host_progName (s : State) : (finishRun s).host.progName = s.host.progName := rfl
@[simp] theorem finishRun_host_out (s : State) : (finishRun s).host.out = s.host.out := rfl
@[simp] theorem finishRun_host_diag (s : State) : (finishRun s).host.diag = s.host.diag := rfl
@[simp] theorem finishRun_host_exit (s : State) : (finishRun s).host.exit = 0 := rfl
@[simp] theorem finishRun_host_report (s : State) : (finishRun s).host.report = s.host.report := rfl
@[simp] theorem finishRun_host_outPath (s : State) : (finishRun s).host.outPath = s.host.outPath := rfl
@[simp] theorem finishRun_host_input (s : State) : (finishRun s).host.input = s.host.input := rfl
@[simp] theorem finishRun_host_handles (s : State) : (finishRun s).host.handles = false := rfl
@[simp] theorem finishRun_host_args (s : State) : (finishRun s).host.args = s.host.args := rfl
@[simp] theorem finishRun_host_sourceFile (s : State) : (finishRun s).host.sourceFile = s.host.sourceFile := rfl
@[simp] theorem finishRun_host_outOpens (s : State) : (finishRun s).host.outOpens = s.host.outOpens := rfl

/-! ### `appendDiagnostic` -/

@[simp] theorem appendDiagnostic_core (token : List Byte) (s : State) : (appendDiagnostic token s).core = s.core := rfl
@[simp] theorem appendDiagnostic_turn (token : List Byte) (s : State) : (appendDiagnostic token s).turn = s.turn := rfl
@[simp] theorem appendDiagnostic_draws (token : List Byte) (s : State) : (appendDiagnostic token s).draws = s.draws := rfl
@[simp] theorem appendDiagnostic_host_lineNo (token : List Byte) (s : State) : (appendDiagnostic token s).host.lineNo = s.host.lineNo := rfl
@[simp] theorem appendDiagnostic_host_fileName (token : List Byte) (s : State) : (appendDiagnostic token s).host.fileName = s.host.fileName := rfl
@[simp] theorem appendDiagnostic_host_progName (token : List Byte) (s : State) : (appendDiagnostic token s).host.progName = s.host.progName := rfl
@[simp] theorem appendDiagnostic_host_out (token : List Byte) (s : State) : (appendDiagnostic token s).host.out = s.host.out := rfl
@[simp] theorem appendDiagnostic_host_diag (token : List Byte) (s : State) : (appendDiagnostic token s).host.diag = s.host.diag ++ [{ lineNo := s.host.lineNo, err := s.core.status.err, token := token }] := rfl
@[simp] theorem appendDiagnostic_host_exit (token : List Byte) (s : State) : (appendDiagnostic token s).host.exit = s.host.exit := rfl
@[simp] theorem appendDiagnostic_host_report (token : List Byte) (s : State) : (appendDiagnostic token s).host.report = s.host.report := rfl
@[simp] theorem appendDiagnostic_host_outPath (token : List Byte) (s : State) : (appendDiagnostic token s).host.outPath = s.host.outPath := rfl
@[simp] theorem appendDiagnostic_host_input (token : List Byte) (s : State) : (appendDiagnostic token s).host.input = s.host.input := rfl
@[simp] theorem appendDiagnostic_host_handles (token : List Byte) (s : State) : (appendDiagnostic token s).host.handles = s.host.handles := rfl
@[simp] theorem appendDiagnostic_host_args (token : List Byte) (s : State) : (appendDiagnostic token s).host.args = s.host.args := rfl
@[simp] theorem appendDiagnostic_host_sourceFile (token : List Byte) (s : State) : (appendDiagnostic token s).host.sourceFile = s.host.sourceFile := rfl
@[simp] theorem appendDiagnostic_host_outOpens (token : List Byte) (s : State) : (appendDiagnostic token s).host.outOpens = s.host.outOpens := rfl

/-! ### `appendRecord` -/

@[simp] theorem appendRecord_core (s : State) : (appendRecord s).core = s.core := by
  unfold appendRecord; split <;> rfl

@[simp] theorem appendRecord_turn (s : State) : (appendRecord s).turn = s.turn := by
  unfold appendRecord; split <;> rfl

@[simp] theorem appendRecord_draws (s : State) : (appendRecord s).draws = s.draws := by
  unfold appendRecord; split <;> rfl

@[simp] theorem appendRecord_host_lineNo (s : State) : (appendRecord s).host.lineNo = s.host.lineNo := by
  unfold appendRecord; split <;> rfl

@[simp] theorem appendRecord_host_fileName (s : State) : (appendRecord s).host.fileName = s.host.fileName := by
  unfold appendRecord; split <;> rfl

@[simp] theorem appendRecord_host_progName (s : State) : (appendRecord s).host.progName = s.host.progName := by
  unfold appendRecord; split <;> rfl

@[simp] theorem appendRecord_host_out (s : State) : (appendRecord s).host.out = s.host.out ++ (if s.core.status.emit then [s.core.rec0, s.core.rec1] else []) := by
  unfold appendRecord; split <;> simp_all

@[simp] theorem appendRecord_host_diag (s : State) : (appendRecord s).host.diag = s.host.diag := by
  unfold appendRecord; split <;> rfl

@[simp] theorem appendRecord_host_report (s : State) : (appendRecord s).host.report = s.host.report := by
  unfold appendRecord; split <;> rfl

@[simp] theorem appendRecord_host_exit (s : State) : (appendRecord s).host.exit = s.host.exit := by
  unfold appendRecord; split <;> rfl

@[simp] theorem appendRecord_host_outPath (s : State) : (appendRecord s).host.outPath = s.host.outPath := by
  unfold appendRecord; split <;> rfl

@[simp] theorem appendRecord_host_input (s : State) : (appendRecord s).host.input = s.host.input := by
  unfold appendRecord; split <;> rfl

@[simp] theorem appendRecord_host_handles (s : State) : (appendRecord s).host.handles = s.host.handles := by
  unfold appendRecord; split <;> rfl

@[simp] theorem appendRecord_host_args (s : State) : (appendRecord s).host.args = s.host.args := by
  unfold appendRecord; split <;> rfl

@[simp] theorem appendRecord_host_sourceFile (s : State) : (appendRecord s).host.sourceFile = s.host.sourceFile := by
  unfold appendRecord; split <;> rfl

@[simp] theorem appendRecord_host_outOpens (s : State) : (appendRecord s).host.outOpens = s.host.outOpens := by
  unfold appendRecord; split <;> rfl

/-! ### `State.withLine`, `State.coreReset` -/

@[simp] theorem State.withLine_core (s : State) (l : List Byte) : (s.withLine l).core = s.core.present l := rfl
@[simp] theorem State.withLine_host (s : State) (l : List Byte) : (s.withLine l).host = s.host := rfl
@[simp] theorem State.withLine_turn (s : State) (l : List Byte) : (s.withLine l).turn = .compile := rfl
@[simp] theorem State.withLine_draws (s : State) (l : List Byte) : (s.withLine l).draws = s.draws := rfl
@[simp] theorem State.coreReset_core (s : State) : s.coreReset.core = CoreRegs.reset := rfl
@[simp] theorem State.coreReset_host (s : State) : s.coreReset.host = s.host := rfl
@[simp] theorem State.coreReset_draws (s : State) : s.coreReset.draws = s.draws := rfl

end Sys2Proof.Machine
end

