-- ==== Sys2Proof/Laws/Text.lean ====
section
/-! SUPPORT. Where the tokens of a line lie, and how instructions and ordinals correspond. -/

namespace Sys2Proof

theorem effLen_le_length (line : List Byte) : effLen line ≤ line.length := by
  induction line with
  | nil => simp [effLen]
  | cons c cs ih => unfold effLen; split <;> simp [ih]

@[simp] theorem strip_length (line : List Byte) : (strip line).length = effLen line := by
  simp [strip, effLen_le_length]

/-- A token the scan finds is not empty and ends within the bytes scanned. -/
theorem mem_scanTokens_bounds (cs : List Byte) (a : Nat) (open? : Option Nat) (ho : ∀ s, open? = some s → s < a)
    (p : Span) (hp : p ∈ scanTokens a open? cs) : 1 ≤ p.len ∧ p.start + p.len ≤ a + cs.length := by
  induction cs generalizing a open? with
  | nil =>
    cases open? with
    | none => simp [scanTokens] at hp
    | some s =>
      have := ho s rfl
      obtain rfl : p = ⟨s, a - s⟩ := by simpa [scanTokens] using hp
      simp only; omega
  | cons c cs ih =>
    have next (o : Option Nat) (h : ∀ s, o = some s → s < a + 1) (h' : p ∈ scanTokens (a + 1) o cs) :
        1 ≤ p.len ∧ p.start + p.len ≤ a + (c :: cs).length := by
      have := ih (a + 1) o h h'
      simp only [List.length_cons]; omega
    cases hc : isSpace c <;> cases open? with
    | none =>
      simp only [scanTokens, hc] at hp
      exact next _ (by simp) hp
    | some s =>
      have hs := ho s rfl
      simp only [scanTokens, hc] at hp
      first
      | exact next _ (by rintro _ ⟨⟩; omega) hp
      | rcases List.mem_cons.mp hp with rfl | hp
        · simp only [List.length_cons]; omega
        · exact next _ (by simp) hp

/-- A token is not empty and lies before the comment (R123). -/
theorem mem_tokens_bounds (line : List Byte) (p : Span) (hp : p ∈ tokens line) :
    1 ≤ p.len ∧ p.start + p.len ≤ effLen line := by
  simpa using mem_scanTokens_bounds (strip line) 0 none (by simp) p hp

@[simp] theorem Instr.ordinal_ofOrdinal (k : OpOrdinal) (o : Operand) : (Instr.ofOrdinal k o).ordinal = k := by
  have : ∀ k : OpOrdinal, (Instr.ofOrdinal k .absent).ordinal = k := by decide
  have same : (Instr.ofOrdinal k o).ordinal = (Instr.ofOrdinal k .absent).ordinal := by
    unfold Instr.ofOrdinal; split <;> rfl
  rw [same, this]

@[simp] theorem Instr.operand_ofOrdinal (k : OpOrdinal) (o : Operand) : (Instr.ofOrdinal k o).operand = o := by
  unfold Instr.ofOrdinal; split <;> rfl

@[simp] theorem Instr.ofOrdinal_ordinal (i : Instr) : Instr.ofOrdinal i.ordinal i.operand = i := by
  cases i <;> rfl

/-- A line with no token is blank and only such a line is (R263). -/
theorem decodeLine_eq_blank (line : List Byte) : decodeLine line = .blank ↔ tokens line = [] := by
  unfold decodeLine
  rcases tokens line with _ | ⟨p, _ | ⟨q, ps⟩⟩
  · simp [decodeTokens]
  · simp only [decodeTokens]; split <;> simp
  · simp only [decodeTokens]; split <;> simp

/-- The class of an ordinal is 0, 4 or 8 bits wide (R147). -/
theorem widthClass_cases (k : OpOrdinal) : widthClass k = 0 ∨ widthClass k = 4 ∨ widthClass k = 8 := by
  revert k; decide

end Sys2Proof
end

