-- ==== Sys2Proof/Laws/Ops.lean ====
section
/-! SUPPORT. What each shared operation can do, once: the meaning of every instruction, the ways a CompileLine ends, the
ways a HOST step ends, and the cases of a step. -/

namespace Sys2Proof.Machine

/-- Every instruction's meaning is the shared operation at its ordinal. -/
theorem exec_eq_assembleInstr (i : Instr) (s : State) : exec i s = .next (assembleInstr i.ordinal i.operand s) := by
  cases i <;> rfl

/-! ### `assembleInstr` -/

@[simp] theorem assembleInstr_host (k : OpOrdinal) (o : Operand) (s : State) : (assembleInstr k o s).host = s.host := by
  cases o <;> rfl

@[simp] theorem assembleInstr_turn (k : OpOrdinal) (o : Operand) (s : State) : (assembleInstr k o s).turn = .act := by
  cases o <;> rfl

@[simp] theorem assembleInstr_line (k : OpOrdinal) (o : Operand) (s : State) :
    (assembleInstr k o s).core.line = s.core.line := by
  cases o <;> rfl

@[simp] theorem assembleInstr_lineLen (k : OpOrdinal) (o : Operand) (s : State) :
    (assembleInstr k o s).core.lineLen = s.core.lineLen := by
  cases o <;> rfl

@[simp] theorem assembleInstr_effLen (k : OpOrdinal) (o : Operand) (s : State) :
    (assembleInstr k o s).core.effLen = s.core.effLen := by
  cases o <;> rfl

@[simp] theorem assembleInstr_ntok (k : OpOrdinal) (o : Operand) (s : State) :
    (assembleInstr k o s).core.ntok = s.core.ntok := by
  cases o <;> rfl

@[simp] theorem assembleInstr_tok0 (k : OpOrdinal) (o : Operand) (s : State) :
    (assembleInstr k o s).core.tok0 = s.core.tok0 := by
  cases o <;> rfl

@[simp] theorem assembleInstr_tok1 (k : OpOrdinal) (o : Operand) (s : State) :
    (assembleInstr k o s).core.tok1 = s.core.tok1 := by
  cases o <;> rfl

@[simp] theorem assembleInstr_hit (k : OpOrdinal) (o : Operand) (s : State) :
    (assembleInstr k o s).core.hit = s.core.hit := by
  cases o <;> rfl

@[simp] theorem assembleInstr_opc (k : OpOrdinal) (o : Operand) (s : State) :
    (assembleInstr k o s).core.opc = s.core.opc := by
  cases o <;> rfl

/-! ### CompileLine -/

/-- How CompileLine on a line's bytes ends: always in a next state, one of three. -/
theorem compileBytes_cases (line : List Byte) (s : State) :
    (decodeLine line = .blank ∧
      compileBytes line s = .next (finishBlank { s with core := s.core.scanned line })) ∨
    (decodeLine line = .unknown ∧
      compileBytes line s = .next (raise .unknownMnemonic false { s with core := s.core.scanned line })) ∨
    ∃ i, decodeLine line = .instr i ∧
      compileBytes line s =
        .next (assembleInstr i.ordinal i.operand { s with core := (s.core.scanned line).putHit i.ordinal }) := by
  unfold compileBytes
  cases h : decodeLine line with
  | blank => exact .inl ⟨rfl, rfl⟩
  | unknown => exact .inr (.inl ⟨rfl, rfl⟩)
  | instr i => exact .inr (.inr ⟨i, rfl, exec_eq_assembleInstr _ _⟩)

/-- When CORE's step answers a next state: the line is there, holds no 0x00, and CompileLine ran on it. -/
theorem compileLine_next {s t : State} (h : compileLine s = .next t) :
    ∃ line, s.core.lineBytes = some line ∧ (0 : Byte) ∉ line ∧ compileBytes line s = .next t := by
  unfold compileLine at h
  split at h
  · cases h
  · rename_i line hl
    split at h
    · cases h
    · rename_i h0
      exact ⟨line, hl, by simpa using h0, h⟩

/-- CORE's step on a line that is there and holds no 0x00. -/
theorem compileLine_of_line {s : State} {line : List Byte} (hl : s.core.lineBytes = some line)
    (h0 : (0 : Byte) ∉ line) : compileLine s = compileBytes line s := by
  have h0' : line.contains 0 = false := by simpa using h0
  simp only [compileLine, hl, h0', Bool.false_eq_true, if_false]

/-! ### HOST -/

/-- When the HOST's reaction to STATUS answers a next state. -/
theorem act_next {s t : State} (h : act s = .next t) :
    (s.core.status.ok = true ∧ t = { appendRecord s with turn := .deliver }) ∨
    (s.core.status.ok = false ∧ ∃ token, offendingToken s.core = some token ∧
      t = { appendDiagnostic token (appendRecord s) with turn := .deliver }) := by
  unfold act at h
  split at h
  · rename_i hok
    cases h
    exact .inl ⟨hok, rfl⟩
  · rename_i hok
    split at h
    · cases h
    · rename_i token ht
      cases h
      exact .inr ⟨by simpa using hok, token, ht, rfl⟩

/-- Opening the files gives the source text exactly when both open. -/
theorem openFiles_ok {s : State} {text : List Byte} :
    openFiles s = .ok text ↔ s.host.sourceFile = some text ∧ s.host.outOpens = true := by
  unfold openFiles
  split <;> simp_all

/-- A file that fails to open is the one reported: the input is unreadable, or the output unwritable. -/
theorem openFiles_error {s : State} {c : FatalCause} (h : openFiles s = .error c) :
    (c = .unreadableInput ∧ s.host.sourceFile = none) ∨ (c = .unwritableOutput ∧ s.host.outOpens = false) := by
  unfold openFiles at h
  split at h
  · cases h
  · rename_i hf _; cases h; exact .inl ⟨rfl, hf⟩
  · rename_i ho; cases h; exact .inr ⟨rfl, ho⟩
  · rename_i hf ho
    split at h <;> cases h
    · exact .inr ⟨rfl, ho⟩
    · exact .inl ⟨rfl, hf⟩

/-- When the HOST's start-up answers a next state: a usage failure, a file that does not open, or the loop is entered. -/
theorem startUp_next {s t : State} (h : startUp s = .next t) :
    (parseArgs s.host.args = .usage ∧ t = fatalExit .usage s) ∨
    (∃ o i c, parseArgs s.host.args = .run o i ∧ openFiles s = .error c ∧ t = fatalExit c s) ∨
    ∃ o i text, parseArgs s.host.args = .run o i ∧ s.host.sourceFile = some text ∧ s.host.outOpens = true ∧
      t = enterLoop o i text s := by
  unfold startUp at h
  split at h
  · rename_i hp; cases h; exact .inl ⟨hp, rfl⟩
  · cases h
  · rename_i o i hp
    split at h
    · rename_i c hc; cases h; exact .inr (.inl ⟨o, i, c, hp, hc, rfl⟩)
    · rename_i text ht
      cases h
      obtain ⟨hf, ho⟩ := openFiles_ok.mp ht
      exact .inr (.inr ⟨o, i, text, hp, hf, ho, rfl⟩)

/-- The HOST's delivery: the run ends, or a piece is delivered. -/
theorem deliver_cases (s : State) :
    (s.host.input = [] ∧ deliver s = finishRun s) ∨
    ∃ c cs p r, s.host.input = c :: cs ∧ takePiece Config.lineMax (c :: cs) = (p, r) ∧
      deliver s = deliverPiece p r s := by
  unfold deliver
  split
  · rename_i h
    exact .inl ⟨h, rfl⟩
  · rename_i c cs h
    exact .inr ⟨c, cs, _, _, h, rfl, rfl⟩

/-- After a fatal error the user is told that one report. -/
theorem userReports_of_some {h : HostData} {text : List Byte} (hr : fatalReport h = some text) :
    userReports h = [text] := by
  simp only [userReports, hr]

/-- Without a fatal error the user is told the error stream. -/
theorem userReports_of_none {h : HostData} (hr : h.report = none) : userReports h = errorStream h := by
  simp only [userReports, fatalReport, hr, Option.map_none]

/-! ### Widths -/

/-- Every index into the line buffer fits in `L` bits (10_state.md R22). -/
theorem lineMax_lt_two_pow_indexBits : Config.lineMax < 2 ^ Config.indexBits := Nat.lt_log2_self

/-! ### Steps -/

/-- The cases of a step that answers a next state, by whose turn it is. -/
theorem step_next {s t : State} (h : step s = .next t) :
    (s.turn = .startUp ∧ startUp s = .next t) ∨ (s.turn = .deliver ∧ t = deliver s) ∨
    (s.turn = .compile ∧ ∃ line, s.core.lineBytes = some line ∧ (0 : Byte) ∉ line ∧ compileBytes line s = .next t) ∨
    (s.turn = .act ∧ act s = .next t) ∨ (s.turn = .ended ∧ t = s) := by
  unfold step at h
  split at h
  · rename_i ht; exact .inl ⟨ht, h⟩
  · rename_i ht; cases h; exact .inr (.inl ⟨ht, rfl⟩)
  · rename_i ht; exact .inr (.inr (.inl ⟨ht, compileLine_next h⟩))
  · rename_i ht; exact .inr (.inr (.inr (.inl ⟨ht, h⟩)))
  · rename_i ht; cases h; exact .inr (.inr (.inr (.inr ⟨ht, rfl⟩)))

end Sys2Proof.Machine
end

