-- ==== Sys2Proof/Laws/PerInstr.lean ====
section
/-! SUPPORT. Statements made per instruction. `RecordShape`: the encoding of an instruction, when it has one, is two
bytes, the first is the ordinal and below 0x10 (30_encoding.md R80, 43_instruction_encoder.md R191), and it has one exactly
when the parser did not turn its operand away (47_line_compiler.md R267). -/

namespace Sys2Proof.Laws.RecordShape

def Statement (i : Instr) : Prop :=
  (∀ bytes, encode i = some bytes →
    ∃ b0 b1 : Byte, bytes = [b0, b1] ∧ b0.toNat = i.ordinal.toNat ∧ b0.toNat < 0x10) ∧
  (encode i = none ↔ i.operand = .malformed ∨ i.operand = .outOfRange)

/-- The shape holds of every ordinal and operand. -/
theorem ofOperand (i : Instr) : Statement i := by
  have byte0 : ∀ k : OpOrdinal, (k.zeroExtend 8).toNat = k.toNat ∧ (k.zeroExtend 8).toNat < 0x10 := by decide
  refine ⟨fun bytes h => ?_, ?_⟩
  · unfold encode at h
    split at h
    · cases h
      exact ⟨_, _, rfl, byte0 i.ordinal⟩
    · cases h
  · unfold encode
    cases ho : i.operand <;> simp [Operand.bits?]

theorem nop (opd : Operand) : Statement (.nop opd) := ofOperand _
theorem load (opd : Operand) : Statement (.load opd) := ofOperand _
theorem dload (opd : Operand) : Statement (.dload opd) := ofOperand _
theorem store (opd : Operand) : Statement (.store opd) := ofOperand _
theorem add (opd : Operand) : Statement (.add opd) := ofOperand _
theorem sub (opd : Operand) : Statement (.sub opd) := ofOperand _
theorem mult (opd : Operand) : Statement (.mult opd) := ofOperand _
theorem div (opd : Operand) : Statement (.div opd) := ofOperand _
theorem jump (opd : Operand) : Statement (.jump opd) := ofOperand _
theorem jge (opd : Operand) : Statement (.jge opd) := ofOperand _
theorem jgt (opd : Operand) : Statement (.jgt opd) := ofOperand _
theorem jle (opd : Operand) : Statement (.jle opd) := ofOperand _
theorem jlt (opd : Operand) : Statement (.jlt opd) := ofOperand _
theorem jeq (opd : Operand) : Statement (.jeq opd) := ofOperand _
theorem jne (opd : Operand) : Statement (.jne opd) := ofOperand _
theorem endProgram (opd : Operand) : Statement (.endProgram opd) := ofOperand _

end Sys2Proof.Laws.RecordShape
end

