-- ==== Sys2Proof/Laws/Record.lean ====
section
/-! SUPPORT. The nibbles of a record as numbers (43_instruction_encoder.md R190 to R195). -/

namespace Sys2Proof

/-- `a ‖ b` on two nibbles is `a × 16 + b` (00_scope.md R11). -/
theorem nibbles_toNat (hi lo : BitVec 4) : (hi ++ lo : BitVec 8).toNat = hi.toNat * 16 + lo.toNat := by
  have h : lo.toNat < 2 ^ 4 := lo.isLt
  rw [BitVec.toNat_append, ← Nat.shiftLeft_add_eq_or_of_lt h, Nat.shiftLeft_eq]

/-- Byte 0 is the ordinal (R191). -/
theorem encodeRec_fst (k : OpOrdinal) (v : Word) : (encodeRec k v).1 = k.zeroExtend 8 := rfl

/-- Byte 1 in the zero-operand class (R192). -/
theorem encodeRec_snd_zero (k : OpOrdinal) (v : Word) (h : widthClass k = 0) : (encodeRec k v).2.toNat = 0 := by
  simp [encodeRec, h]

/-- Byte 1 in the register class (R193). -/
theorem encodeRec_snd_register (k : OpOrdinal) (v : Word) (h : widthClass k = 4) :
    (encodeRec k v).2.toNat = v.toNat % 16 := by
  simp [encodeRec, h, nibbles_toNat]

/-- Byte 1 in the address class (R194). -/
theorem encodeRec_snd_address (k : OpOrdinal) (v : Word) (h : widthClass k = 8) :
    (encodeRec k v).2.toNat = v.toNat % 256 := by
  simp only [encodeRec, h, Nat.reduceLeDiff, if_true, nibbles_toNat, BitVec.extractLsb'_toNat,
    Nat.shiftRight_eq_div_pow]
  omega

end Sys2Proof
end

