-- ==== Sys2Proof/Laws/Run.lean ====
section
/-! SUPPORT. Runs of several steps, one step at a time: first for any machine behind Host/Core.lean, then for this one. -/

namespace Sys2Proof.Laws

variable {M : Host.Core}

/-- A run whose first step answers a next state goes on from there. -/
theorem coreRun_of_step {s t : M.State} (n : Nat) (h : M.step s = .next t) :
    Host.Core.run M (n + 1) s = Host.Core.run M n t := by
  simp only [Host.Core.run, h]

/-- The first step of a run that ends in a state answers a next state. -/
theorem step_of_coreRun {n : Nat} {s t : M.State} (h : Host.Core.run M (n + 1) s = .next t) :
    ∃ u, M.step s = .next u ∧ Host.Core.run M n u = .next t := by
  simp only [Host.Core.run] at h
  cases hs : M.step s with
  | next u => rw [hs] at h; exact ⟨u, rfl, h⟩
  | fault r => rw [hs] at h; cases h
  | refused r => rw [hs] at h; cases h

/-- A run of `a` steps and then `b` more. -/
theorem coreRun_add {a b : Nat} {s t : M.State} (h : Host.Core.run M a s = .next t) :
    Host.Core.run M (a + b) s = Host.Core.run M b t := by
  induction a generalizing s with
  | zero => cases h; rw [Nat.zero_add]
  | succ a ih =>
    obtain ⟨u, hu, h⟩ := step_of_coreRun h
    rw [Nat.succ_add, coreRun_of_step _ hu]
    exact ih h

end Sys2Proof.Laws

namespace Sys2Proof.Machine

theorem run_of_step {s t : State} (n : Nat) (h : step s = .next t) :
    Host.Core.run Sys2Proof.core (n + 1) s = Host.Core.run Sys2Proof.core n t :=
  Laws.coreRun_of_step (M := Sys2Proof.core) n h

theorem step_of_run {n : Nat} {s t : State} (h : Host.Core.run Sys2Proof.core (n + 1) s = .next t) :
    ∃ u, step s = .next u ∧ Host.Core.run Sys2Proof.core n u = .next t :=
  Laws.step_of_coreRun (M := Sys2Proof.core) h

theorem run_add {a b : Nat} {s t : State} (h : Host.Core.run Sys2Proof.core a s = .next t) :
    Host.Core.run Sys2Proof.core (a + b) s = Host.Core.run Sys2Proof.core b t :=
  Laws.coreRun_add (M := Sys2Proof.core) h

end Sys2Proof.Machine
end

