-- ==== Sys2Proof/Tests/Slice0.lean ====
section
/-! SUPPORT. Tests of the model on fixed values, with expected results from spec/ (95_test_vectors.md, the corner cases of
the instruction rules), and for every statement with hypotheses a state and operands that meet them. A line is given by its
bytes, its text in the comment above it. -/

namespace Sys2Proof.Tests

open Sys2Proof.Machine Sys2Proof.Claims

/-! ### Helpers -/

/-- The machine with a line in LINE. -/
def withText (line : List Byte) : State := State.reset.withLine line

/-- The record that CORE's step gives for a line. -/
def recordOf (line : List Byte) : Option (Byte × Byte) :=
  match step (withText line) with
  | .next t => if t.core.status.emit then some (t.core.rec0, t.core.rec1) else none
  | _ => none

/-- The condition that CORE's step raises for a line: code, token number, start, length. -/
def conditionOf (line : List Byte) : Option (ErrCode × Bool × Nat × Nat) :=
  match step (withText line) with
  | .next t =>
    if t.core.status.ok then none
    else some (t.core.status.err, t.core.status.errTokIdx, t.core.status.errTokS, t.core.status.errTokN)
  | _ => none

/-- What a step leaves, when it answers a next state. -/
def after (s : State) : Option State :=
  match step s with
  | .next t => some t
  | _ => none

/-! ### Well-formedness refuses -/

/-- an operand where the class has none -/
theorem test_wf_nop_operand : (Instr.nop (.value 0)).wf = false := by decide

theorem test_wf_end_operand : (Instr.endProgram .malformed).wf = false := by decide

/-- a register-class operand of more than 4 bits, or none -/
theorem test_wf_add_wide : (Instr.add (.value 16)).wf = false := by decide

theorem test_wf_add_absent : (Instr.add .absent).wf = false := by decide

/-- an address-class operand of more than 8 bits, or one that is no number -/
theorem test_wf_jump_wide : (Instr.jump (.value 256)).wf = false := by decide

theorem test_wf_jump_malformed : (Instr.jump .malformed).wf = false := by decide

theorem test_wf_accepts :
    (Instr.nop .absent).wf = true ∧ (Instr.div (.value 15)).wf = true ∧ (Instr.jne (.value 255)).wf = true := by
  decide

/-! ### Records: words written out from the patterns of 30_encoding.md R85 -/

theorem test_word_nop : decodeTableWord 16 0b0000000000000000 = some (.nop .absent) := by decide

theorem test_word_load : decodeTableWord 16 0b0000000100000011 = some (.load (.value 3)) := by decide

theorem test_word_dload : decodeTableWord 16 0b0000001010101011 = some (.dload (.value 0xAB)) := by decide

theorem test_word_store : decodeTableWord 16 0b0000001100001001 = some (.store (.value 9)) := by decide

theorem test_word_add : decodeTableWord 16 0b0000010000000101 = some (.add (.value 5)) := by decide

theorem test_word_sub : decodeTableWord 16 0b0000010100001111 = some (.sub (.value 15)) := by decide

theorem test_word_mult : decodeTableWord 16 0b0000011000000111 = some (.mult (.value 7)) := by decide

theorem test_word_div : decodeTableWord 16 0b0000011100000010 = some (.div (.value 2)) := by decide

theorem test_word_jump : decodeTableWord 16 0b0000100000011111 = some (.jump (.value 0x1F)) := by decide

theorem test_word_jge : decodeTableWord 16 0b0000100111001000 = some (.jge (.value 0xC8)) := by decide

theorem test_word_jgt : decodeTableWord 16 0b0000101010000000 = some (.jgt (.value 0x80)) := by decide

theorem test_word_jle : decodeTableWord 16 0b0000101101111111 = some (.jle (.value 0x7F)) := by decide

theorem test_word_jlt : decodeTableWord 16 0b0000110000000001 = some (.jlt (.value 1)) := by decide

theorem test_word_jeq : decodeTableWord 16 0b0000110100101010 = some (.jeq (.value 0x2A)) := by decide

theorem test_word_jne : decodeTableWord 16 0b0000111011111111 = some (.jne (.value 0xFF)) := by decide

theorem test_word_end : decodeTableWord 16 0b0000111100000000 = some (.endProgram .absent) := by decide

/-- 95_test_vectors.md section 5.4: `04 15`, `0F 01`, `10 00` are refused. -/
theorem test_word_refused :
    decode [0x04, 0x15] = .error .registerHighNibble ∧ decode [0x0F, 0x01] = .error .zeroOperandByte ∧
    decode [0x10, 0x00] = .error .opcodeOutOfRange ∧ decode [0x04] = .error .truncated := ⟨rfl, rfl, rfl, rfl⟩

/-! ### Instructions: the corner cases of their rules, one step each -/

/-- `nop 0xFFFFFFFF` gives `00 00`. -/
theorem test_line_nop :
    recordOf [0x6E, 0x6F, 0x70, 0x20, 0x30, 0x78, 0x46, 0x46, 0x46, 0x46, 0x46, 0x46, 0x46, 0x46] = some (0x00, 0x00) := by
  decide

/-- `load 0x3c` gives `01 0C`. -/
theorem test_line_load :
    recordOf [0x6C, 0x6F, 0x61, 0x64, 0x20, 0x30, 0x78, 0x33, 0x63] = some (0x01, 0x0C) := by
  decide

/-- `load` gives `01 00`. -/
theorem test_line_load_absent :
    recordOf [0x6C, 0x6F, 0x61, 0x64] = some (0x01, 0x00) := by
  decide

/-- `dload 0253` gives `02 AB`. -/
theorem test_line_dload :
    recordOf [0x64, 0x6C, 0x6F, 0x61, 0x64, 0x20, 0x30, 0x32, 0x35, 0x33] = some (0x02, 0xAB) := by
  decide

/-- `dload -1` gives `02 FF`. -/
theorem test_line_dload_negative :
    recordOf [0x64, 0x6C, 0x6F, 0x61, 0x64, 0x20, 0x2D, 0x31] = some (0x02, 0xFF) := by
  decide

/-- `store -2` gives `03 0E`. -/
theorem test_line_store :
    recordOf [0x73, 0x74, 0x6F, 0x72, 0x65, 0x20, 0x2D, 0x32] = some (0x03, 0x0E) := by
  decide

/-- `\tADD 20 xyz ; c\r\n` gives `04 04`. -/
theorem test_line_add :
    recordOf [0x09, 0x41, 0x44, 0x44, 0x20, 0x32, 0x30, 0x20, 0x78, 0x79, 0x7A, 0x20, 0x3B, 0x20, 0x63, 0x0D, 0x0A] = some (0x04, 0x04) := by
  decide

/-- `sub 031` gives `05 09`. -/
theorem test_line_sub :
    recordOf [0x73, 0x75, 0x62, 0x20, 0x30, 0x33, 0x31] = some (0x05, 0x09) := by
  decide

/-- `mult -9` gives `06 07`. -/
theorem test_line_mult :
    recordOf [0x6D, 0x75, 0x6C, 0x74, 0x20, 0x2D, 0x39] = some (0x06, 0x07) := by
  decide

/-- `div 0x100` gives `07 00`. -/
theorem test_line_div :
    recordOf [0x64, 0x69, 0x76, 0x20, 0x30, 0x78, 0x31, 0x30, 0x30] = some (0x07, 0x00) := by
  decide

/-- `jump 0X1f` gives `08 1F`. -/
theorem test_line_jump :
    recordOf [0x6A, 0x75, 0x6D, 0x70, 0x20, 0x30, 0x58, 0x31, 0x66] = some (0x08, 0x1F) := by
  decide

/-- `jump 511` gives `08 FF`. -/
theorem test_line_jump_wraps :
    recordOf [0x6A, 0x75, 0x6D, 0x70, 0x20, 0x35, 0x31, 0x31] = some (0x08, 0xFF) := by
  decide

/-- `jge 456` gives `09 C8`. -/
theorem test_line_jge :
    recordOf [0x6A, 0x67, 0x65, 0x20, 0x34, 0x35, 0x36] = some (0x09, 0xC8) := by
  decide

/-- `jgt 0200` gives `0A 80`. -/
theorem test_line_jgt :
    recordOf [0x6A, 0x67, 0x74, 0x20, 0x30, 0x32, 0x30, 0x30] = some (0x0A, 0x80) := by
  decide

/-- `jle -129` gives `0B 7F`. -/
theorem test_line_jle :
    recordOf [0x6A, 0x6C, 0x65, 0x20, 0x2D, 0x31, 0x32, 0x39] = some (0x0B, 0x7F) := by
  decide

/-- `jlt -255` gives `0C 01`. -/
theorem test_line_jlt :
    recordOf [0x6A, 0x6C, 0x74, 0x20, 0x2D, 0x32, 0x35, 0x35] = some (0x0C, 0x01) := by
  decide

/-- `jeq 0x12A` gives `0D 2A`. -/
theorem test_line_jeq :
    recordOf [0x6A, 0x65, 0x71, 0x20, 0x30, 0x78, 0x31, 0x32, 0x41] = some (0x0D, 0x2A) := by
  decide

/-- `JnE 0XfF` gives `0E FF`. -/
theorem test_line_jne :
    recordOf [0x4A, 0x6E, 0x45, 0x20, 0x30, 0x58, 0x66, 0x46] = some (0x0E, 0xFF) := by
  decide

/-- `end 0xFF` gives `0F 00`. -/
theorem test_line_end :
    recordOf [0x65, 0x6E, 0x64, 0x20, 0x30, 0x78, 0x46, 0x46] = some (0x0F, 0x00) := by
  decide

/-! ### Conditions: 95_test_vectors.md section 6.5 -/

/-- `  Frobnicate 3`. -/
theorem test_condition_unknown :
    conditionOf [0x20, 0x20, 0x46, 0x72, 0x6F, 0x62, 0x6E, 0x69, 0x63, 0x61, 0x74, 0x65, 0x20, 0x33] = some (.unknownMnemonic, false, 2, 10) := by
  decide

/-- `nop xyz`. -/
theorem test_condition_malformed :
    conditionOf [0x6E, 0x6F, 0x70, 0x20, 0x78, 0x79, 0x7A] = some (.malformedNumber, true, 4, 3) := by
  decide

/-- `jump 0x`. -/
theorem test_condition_bare_prefix :
    conditionOf [0x6A, 0x75, 0x6D, 0x70, 0x20, 0x30, 0x78] = some (.malformedNumber, true, 5, 2) := by
  decide

/-- `end 08`. -/
theorem test_condition_octal_nine :
    conditionOf [0x65, 0x6E, 0x64, 0x20, 0x30, 0x38] = some (.malformedNumber, true, 4, 2) := by
  decide

/-- `add -4294967296`. -/
theorem test_condition_range :
    conditionOf [0x61, 0x64, 0x64, 0x20, 0x2D, 0x34, 0x32, 0x39, 0x34, 0x39, 0x36, 0x37, 0x32, 0x39, 0x36] = some (.numberOutOfRange, true, 4, 11) := by
  decide

/-- `jump 99999999999xyz`. -/
theorem test_condition_both :
    conditionOf [0x6A, 0x75, 0x6D, 0x70, 0x20, 0x39, 0x39, 0x39, 0x39, 0x39, 0x39, 0x39, 0x39, 0x39, 0x39, 0x39, 0x78, 0x79, 0x7A] = some (.malformedNumber, true, 5, 14) := by
  decide

/-- `   ; c`: neither a record nor a condition (section 6.1). -/
theorem test_line_comment :
    recordOf [0x20, 0x20, 0x20, 0x3B, 0x20, 0x63] = none ∧ conditionOf [0x20, 0x20, 0x20, 0x3B, 0x20, 0x63] = none := by
  decide

/-- `4294967295` is in range (42_operand_parser.md R176). -/
theorem test_operand_max : parseOperand [0x34, 0x32, 0x39, 0x34, 0x39, 0x36, 0x37, 0x32, 0x39, 0x35] = .value 0xFFFFFFFF := by decide

/-- `00000000000000000005`: leading zeros do not overflow (95_test_vectors.md section 4.1). -/
theorem test_operand_leading_zeros : parseOperand [0x30, 0x30, 0x30, 0x30, 0x30, 0x30, 0x30, 0x30, 0x30, 0x30, 0x30, 0x30, 0x30, 0x30, 0x30, 0x30, 0x30, 0x30, 0x30, 0x35] = .value 5 := by decide

/-- `ASSEMBLE`'s command line with its option (48_program_driver.md R298): `-o x y`. -/
theorem test_command_line : parseArgs [[0x2D, 0x6F], [0x78], [0x79]] = .run [0x78] [0x79] := by decide

/-- The cut of P5 (95_test_vectors.md section 7), for pieces of 16 bytes: `add 5 ; this comment is long`. -/
theorem test_piece_of_16 :
    takePiece 16 [0x61, 0x64, 0x64, 0x20, 0x35, 0x20, 0x3B, 0x20, 0x74, 0x68, 0x69, 0x73, 0x20, 0x63, 0x6F, 0x6D, 0x6D, 0x65, 0x6E, 0x74, 0x20, 0x69, 0x73, 0x20, 0x6C, 0x6F, 0x6E, 0x67]
      = ([0x61, 0x64, 0x64, 0x20, 0x35, 0x20, 0x3B, 0x20, 0x74, 0x68, 0x69, 0x73, 0x20, 0x63, 0x6F, 0x6D], [0x6D, 0x65, 0x6E, 0x74, 0x20, 0x69, 0x73, 0x20, 0x6C, 0x6F, 0x6E, 0x67]) := by
  decide

/-- A diagnostic's line begins with `prog:file:12: ` (48_program_driver.md R295). -/
theorem test_diagnostic_head :
    (diagnosticLine [0x70, 0x72, 0x6F, 0x67] [0x66, 0x69, 0x6C, 0x65] ⟨12, .unknownMnemonic, []⟩).take 14 = [0x70, 0x72, 0x6F, 0x67, 0x3A, 0x66, 0x69, 0x6C, 0x65, 0x3A, 0x31, 0x32, 0x3A, 0x20] := rfl

/-! ### What the statements assume can be met -/

/-- A state about to deliver a text. -/
def withInput (text : List Byte) : State :=
  { State.reset with turn := .deliver, host := { HostData.reset with input := text, handles := true } }

/-- A HOST about to act on a failed line whose token is the line's one byte. -/
def failedState : State :=
  { State.reset with
    turn := .act
    core := { CoreRegs.reset with
      line := [(0, 0x78)], lineLen := 1, status := Status.failure .unknownMnemonic false ⟨0, 1⟩ }
    host := { HostData.reset with lineNo := 1, handles := true } }

/-- A HOST about to act on a record. -/
def emittedState : State :=
  { State.reset with
    turn := .act
    core := { CoreRegs.reset with rec0 := 0x04, rec1 := 0x05, status := Status.success true 0 }
    host := { HostData.reset with lineNo := 1, handles := true } }

theorem witness_DecodeEncodeWellFormed : (Instr.add (.value 15)).wf = true := by decide

theorem witness_DecodedRecordsEncodeBack : decode [0x04, 0x05, 0x0F] = .ok (.add (.value 5), [0x0F]) := rfl

theorem witness_UnproducedRecordsRefused :
    16 ≤ (0x10 : Byte).toNat ∧ ((0x0F : Byte) ∈ zeroBytes ∧ (0x01 : Byte) ≠ 0) ∧
    ((0x07 : Byte) ∈ registerBytes ∧ 16 ≤ (0x10 : Byte).toNat) ∧ (0x0E : Byte) ∈ addressBytes := by
  decide

theorem witness_EncodeByClass :
    (15 : OpOrdinal) ∈ ([0, 15] : List OpOrdinal) ∧ (7 : OpOrdinal) ∈ ([1, 3, 4, 5, 6, 7] : List OpOrdinal) ∧
    (14 : OpOrdinal) ∈ ([2, 8, 9, 10, 11, 12, 13, 14] : List OpOrdinal) := by
  decide

/-- 95_test_vectors.md section 3.2: `Fold(0x41)`, `Fold(0x5A)`, `Fold(0x40)`, `Fold(0x5B)`. -/
theorem witness_FoldCapitalsOnly :
    (0x41 ≤ (0x41 : Byte).toNat ∧ (0x41 : Byte).toNat ≤ 0x5A) ∧
    (0x41 ≤ (0x5A : Byte).toNat ∧ (0x5A : Byte).toNat ≤ 0x5A) ∧ (0x40 : Byte).toNat < 0x41 ∧
    0x5A < (0x5B : Byte).toNat ∧ fold 0x41 = 0x61 ∧ fold 0x5A = 0x7A ∧ fold 0x40 = 0x40 ∧ fold 0x5B = 0x5B := by
  decide

/-- `a;b`: a byte before the cut, and a cut before the end. -/
theorem witness_CommentCutAtFirst :
    0 < effLen [0x61, 0x3B, 0x62] ∧ effLen [0x61, 0x3B, 0x62] < [0x61, 0x3B, 0x62].length := by
  decide

/-- `add 5`, then a space. -/
theorem witness_LaterTokensIgnored : 2 ≤ (tokens [0x61, 0x64, 0x64, 0x20, 0x35]).length ∧ isSpace 0x20 = true := by decide

theorem witness_OuterSpaceIgnored : ∀ w ∈ ([0x0D, 0x0A] : List Byte), isSpace w = true := by decide

theorem witness_CommentChangesNothing : (0x3B : Byte) = 0x23 ∨ (0x3B : Byte) = 0x3B := by decide

/-- The ends of each range of digits and a byte next to each. -/
theorem witness_DigitValues :
    digitVal 0x30 = some 0 ∧ digitVal 0x39 = some 9 ∧ digitVal 0x61 = some 10 ∧ digitVal 0x66 = some 15 ∧
    digitVal 0x41 = some 10 ∧ digitVal 0x46 = some 15 ∧ digitVal 0x2F = none ∧ digitVal 0x3A = none ∧
    digitVal 0x40 = none ∧ digitVal 0x47 = none ∧ digitVal 0x60 = none ∧ digitVal 0x67 = none := by
  decide

/-- `-16`. -/
theorem witness_LiteralValues : Literal [0x2D, 0x31, 0x36] true 16 ∧ 16 ≤ 4294967295 :=
  ⟨.minus _ _ (.decimal 0x31 [0x36] (by decide) (by decide)), by decide⟩

/-- `0xF` and `017`, the other two alternatives of the grammar. -/
theorem witness_LiteralValues_bases : Literal [0x30, 0x78, 0x46] false 15 ∧ Literal [0x30, 0x31, 0x37] false 15 :=
  ⟨.unsigned _ _ (.hex 0x78 0x46 [] (by decide) (by decide)), .unsigned _ _ (.octal [0x31, 0x37] (by decide))⟩

/-- A line with a good operand, one with none, and one with an operand that fails. -/
theorem witness_InstructionFrame :
    (∃ t, exec (.add (.value 5)) State.reset = .next t) ∧
    (∃ t, exec (.add .absent) State.reset = .next t ∧ (Instr.add .absent).operand = .absent) ∧
    (∃ t, exec (.add .outOfRange) State.reset = .next t ∧ (Instr.add .outOfRange).operand = .outOfRange) :=
  ⟨⟨_, rfl⟩, ⟨_, rfl, rfl⟩, ⟨_, rfl, rfl⟩⟩

theorem witness_RecordIsEncoding :
    encode (.add (.value 5)) = some [0x04, 0x05] ∧ encode (.add .malformed) = none := by
  decide

/-- `add 5`. -/
theorem witness_StepRunsDecodedInstruction :
    LineReady (withText [0x61, 0x64, 0x64, 0x20, 0x35]) [0x61, 0x64, 0x64, 0x20, 0x35] ∧ decodeLine [0x61, 0x64, 0x64, 0x20, 0x35] = .instr (.add (.value 5)) :=
  ⟨⟨rfl, rfl, by decide⟩, rfl⟩

theorem witness_FetchWordRunsInstruction : decodeTableWord 16 0x0405 = some (.add (.value 5)) := by decide

/-- A blank line, a line with a record, a line that fails. -/
theorem witness_StepGivesLineResult :
    LineReady (withText [0x0A]) [0x0A] ∧ lineResult [0x0A] = .nothing ∧
    LineReady (withText [0x61, 0x64, 0x64, 0x20, 0x35]) [0x61, 0x64, 0x64, 0x20, 0x35] ∧ lineResult [0x61, 0x64, 0x64, 0x20, 0x35] = .record (0x04, 0x05) ∧
    LineReady (withText [0x78]) [0x78] ∧ lineResult [0x78] = .failed .unknownMnemonic [0x78] :=
  ⟨⟨rfl, rfl, by decide⟩, rfl, ⟨rfl, rfl, by decide⟩, rfl, ⟨rfl, rfl, by decide⟩, rfl⟩

theorem witness_BlankLineEmitsNothing : LineReady (withText [0x0A]) [0x0A] ∧ tokens [0x0A] = [] :=
  ⟨⟨rfl, rfl, by decide⟩, rfl⟩

/-- `x`. -/
theorem witness_UnknownMnemonicRaised :
    LineReady (withText [0x78]) [0x78] ∧ tokens [0x78] = [⟨0, 1⟩] ∧
    ∀ k, (slice [0x78] ⟨0, 1⟩).map fold ≠ mnemonicName k :=
  ⟨⟨rfl, rfl, by decide⟩, rfl, by decide⟩

theorem witness_StatusAlwaysLegal : (withText [0x61, 0x64, 0x64, 0x20, 0x35]).turn = .compile ∧ ∃ t, step (withText [0x61, 0x64, 0x64, 0x20, 0x35]) = .next t :=
  ⟨rfl, _, rfl⟩

/-- `x`, delivered: the line buffer's invariant holds. -/
theorem witness_StatusAlwaysLegal_bits :
    (withText [0x78]).BufferInv ∧ (withText [0x78]).turn = .compile ∧ ∃ t, step (withText [0x78]) = .next t := by
  have one : 1 ≤ Config.lineMax := Nat.le_add_left 1 _
  exact ⟨⟨by decide, by decide, one, Nat.zero_le _, Nat.zero_le _, Nat.zero_le _, by decide, by decide⟩, rfl, _, rfl⟩

theorem withText_ne_withLine : withText [0x61, 0x64, 0x64, 0x20, 0x35] ≠ State.withLine emittedState [0x61, 0x64, 0x64, 0x20, 0x35] := by
  intro h
  have h0 := congrArg (fun s : State => s.core.rec0) h
  revert h0
  decide

/-- The same line in two states that differ otherwise. -/
theorem witness_EqualLinesEqualResults :
    LineReady (withText [0x61, 0x64, 0x64, 0x20, 0x35]) [0x61, 0x64, 0x64, 0x20, 0x35] ∧ LineReady (State.withLine emittedState [0x61, 0x64, 0x64, 0x20, 0x35]) [0x61, 0x64, 0x64, 0x20, 0x35] ∧
    withText [0x61, 0x64, 0x64, 0x20, 0x35] ≠ State.withLine emittedState [0x61, 0x64, 0x64, 0x20, 0x35] ∧
    (∃ t, step (withText [0x61, 0x64, 0x64, 0x20, 0x35]) = .next t) ∧ ∃ t, step (State.withLine emittedState [0x61, 0x64, 0x64, 0x20, 0x35]) = .next t :=
  ⟨⟨rfl, rfl, by decide⟩, ⟨rfl, rfl, by decide⟩, withText_ne_withLine, ⟨_, rfl⟩, ⟨_, rfl⟩⟩

theorem witness_CoreStepKeepsLineAndHost : (withText [0x78]).turn = .compile ∧ ∃ t, step (withText [0x78]) = .next t :=
  ⟨rfl, _, rfl⟩

theorem witness_ZeroByteLineRefused :
    (withText [0x61, 0x00]).turn = .compile ∧ (withText [0x61, 0x00]).core.lineBytes = some [0x61, 0x00] ∧
    (0 : Byte) ∈ ([0x61, 0x00] : List Byte) :=
  ⟨rfl, rfl, by decide⟩

theorem witness_StatusWordLayout : (Status.failure .malformedNumber true ⟨4, 3⟩).errTokS < 2 ^ 3 ∧
    (Status.failure .malformedNumber true ⟨4, 3⟩).errTokN < 2 ^ 3 := by
  decide

/-- A record to append, and a blank line with nothing to append. -/
theorem witness_RecordAppendedWhenEmitted :
    emittedState.turn = .act ∧ emittedState.core.status.ok = true ∧ emittedState.core.status.emit = true :=
  ⟨rfl, rfl, rfl⟩

theorem witness_RecordAppendedWhenEmitted_blank :
    ∃ t, step (withText [0x0A]) = .next t ∧ t.turn = .act ∧ t.core.status.ok = true ∧ t.core.status.emit = false :=
  ⟨_, rfl, rfl, rfl, rfl⟩

theorem witness_FailedLineOneDiagnostic :
    failedState.turn = .act ∧ failedState.core.status.ok = false ∧ failedState.core.status.emit = false ∧
    Memory.readBytes failedState.core.line failedState.core.status.errTokS failedState.core.status.errTokN
      = some [0x78] := by
  decide

theorem witness_PieceCut : takePiece Config.lineMax [0x0A, 0x61] = ([0x0A], [0x61]) := rfl

theorem witness_NextLineDelivered :
    (withInput [0x0A, 0x61]).turn = .deliver ∧ (withInput [0x0A, 0x61]).host.input = 0x0A :: [0x61] ∧
    takePiece Config.lineMax (0x0A :: [0x61]) = ([0x0A], [0x61]) :=
  ⟨rfl, rfl, rfl⟩

theorem witness_DeliveryFrame :
    (withInput [0x0A]).turn = .deliver ∧ (withInput [0x0A]).host.input = 0x0A :: [] ∧
    ∃ t, step (withInput [0x0A]) = .next t :=
  ⟨rfl, rfl, _, rfl⟩

theorem witness_RunEndsWithStatusZero : (withInput []).turn = .deliver ∧ (withInput []).host.input = [] := ⟨rfl, rfl⟩

/-- `x` and `y` as paths; no argument, and an input that opens. -/
theorem witness_StartUpOutcomes :
    State.reset.turn = .startUp ∧ isPath [0x78] = true ∧ isPath [0x79] = true ∧ ([0x78] : List Byte) ≠ [0x79] ∧
    [0x78] ≠ defaultOutPath ∧ State.reset.host.args ∈ [[], [optionO], [optionO, [0x79]]] ∧
    (State.reset.withInvocation [] [[0x78]] none true).host.args ∈ [[[0x78]], [optionO, [0x79], [0x78]]] ∧
    (State.reset.withInvocation [] [[0x78]] none true).host.sourceFile = none ∧
    (State.reset.withInvocation [] [[0x78]] (some [0x0A]) true).host.sourceFile = some [0x0A] ∧
    (State.reset.withInvocation [] [[0x78]] (some [0x0A]) false).host.outOpens = false ∧
    (State.reset.withInvocation [] [[0x78]] (some [0x0A]) true).host.outOpens = true := by
  decide

/-- An output that does not open beside an input that does: the one that is reported. -/
theorem test_report_unwritable :
    ∃ t, step (State.reset.withInvocation [] [[0x78]] (some [0x0A]) false) = .next t ∧
      t.host.report = some .unwritableOutput := ⟨_, rfl, rfl⟩

/-- A HOST that has reported a fatal error, and one with a diagnostic and no fatal error. -/
theorem witness_UserIsTold :
    { HostData.reset with report := some .usage }.report ≠ none ∧
    { HostData.reset with diag := [⟨1, .unknownMnemonic, [0x78]⟩] }.report = none ∧
    { HostData.reset with diag := [⟨1, .unknownMnemonic, [0x78]⟩] }.diag[0]? = some ⟨1, .unknownMnemonic, [0x78]⟩ := by
  decide

/-- A step that is not the start-up, with exit status 0. -/
theorem witness_ExitOneOnlyAtStartUp :
    (∃ t, step (withInput []) = .next t) ∧ (withInput []).turn ≠ .startUp ∧ (withInput []).host.exit = 0 :=
  ⟨⟨_, rfl⟩, by decide, by decide⟩

theorem witness_OutputOnlyGrows : (∃ t, step emittedState = .next t) ∧ emittedState.turn ≠ .startUp :=
  ⟨⟨_, rfl⟩, by decide⟩

theorem witness_CoreResetKeepsOutput :
    (withText [0x78]).turn = .compile ∧ (withInput []).turn ≠ .compile ∧ (withInput []).turn ≠ .act := by
  decide

/-- The state after a failed line, whose HOST is about to act, meets the three invariants and takes a step. -/
theorem witness_StepKeepsInvariants :
    failedState.BufferInv ∧ failedState.ResultInv ∧ failedState.OutputInv ∧ ∃ t, step failedState = .next t := by
  have one : 1 ≤ Config.lineMax := Nat.le_add_left 1 _
  refine ⟨⟨by decide, by decide, one, Nat.zero_le _, Nat.zero_le _, Nat.zero_le _, by decide, by decide⟩,
    ⟨rfl, by decide, by decide, by decide, by decide⟩,
    ⟨by decide, by decide, by decide, by decide, by decide, by decide, by decide, by decide⟩, ⟨_, rfl⟩⟩

/-- `x` and a line terminator, about to be delivered. -/
theorem witness_RunIsAssemble :
    (withInput [0x78, 0x0A]).turn = .deliver ∧ (0 : Byte) ∉ (withInput [0x78, 0x0A]).host.input := by
  decide

theorem witness_AssembleSplitsAtLineEnd :
    ([0x78, 0x0A] : List Byte) = [] ∨ ([0x78, 0x0A] : List Byte).getLast? = some 0x0A := by
  decide

end Sys2Proof.Tests
end

section
/-! SUPPORT and PROOF. The tokenizer finds exactly the maximal runs of bytes not in WS, in order of position (R123,
R124). The scan keeps one fact, `Scanning`: the token being read begins at a token boundary and holds no whitespace. -/

namespace Sys2Proof

/-- Whether the byte at index `i` is in WS; `none` past the end of the line. -/
def spaceAt (l : List Byte) (i : Nat) : Option Bool := l[i]?.map isSpace

theorem spaceAt_eq_some_iff {l : List Byte} {i : Nat} {b : Bool} :
    spaceAt l i = some b ↔ ∃ c, l[i]? = some c ∧ isSpace c = b :=
  Option.map_eq_some_iff

theorem lt_length_of_spaceAt {l : List Byte} {i : Nat} {b : Bool} (h : spaceAt l i = some b) : i < l.length := by
  obtain ⟨c, hc, -⟩ := spaceAt_eq_some_iff.mp h
  exact (List.getElem?_eq_some_iff.mp hc).1

/-- A token can begin at `i`: the line begins there or a byte of WS stands before it. -/
def StartsRun (l : List Byte) (i : Nat) : Prop := i = 0 ∨ spaceAt l (i - 1) = some true

/-- A token can end before `j`: the line ends there or a byte of WS stands there. -/
def EndsRun (l : List Byte) (j : Nat) : Prop := j = l.length ∨ spaceAt l j = some true

/-- Every index from `i` up to `j` holds a byte not in WS. -/
def Solid (l : List Byte) (i j : Nat) : Prop := ∀ a, i ≤ a → a < j → spaceAt l a = some false

/-- The place is a maximal run of bytes not in WS (R123). -/
def IsMaximalRun (l : List Byte) (p : Span) : Prop :=
  1 ≤ p.len ∧ p.start + p.len ≤ l.length ∧ Solid l p.start (p.start + p.len) ∧
  StartsRun l p.start ∧ EndsRun l (p.start + p.len)

/-- No run ends inside a solid stretch. -/
theorem Solid.le_of_endsRun {l : List Byte} {i j e : Nat} (solid : Solid l i j) (hj : j ≤ l.length)
    (ends : EndsRun l e) (hi : i ≤ e) : j ≤ e := by
  by_contra! hlt
  rcases ends with rfl | space
  · omega
  · simp [solid e hi hlt] at space

/-- A run that starts within a solid stretch starts where it begins. -/
theorem Solid.eq_or_le_of_startsRun {l : List Byte} {i j s : Nat} (solid : Solid l i j)
    (starts : StartsRun l s) (hi : i ≤ s) : s = i ∨ j ≤ s := by
  by_contra! h
  rcases starts with rfl | space
  · omega
  · simp [solid (s - 1) (by omega) (by omega)] at space

/-- A maximal run does not begin where another may end: at the line's end or at a byte of WS. -/
theorem IsMaximalRun.start_ne {l : List Byte} {p : Span} {j : Nat} (run : IsMaximalRun l p) (ends : EndsRun l j) :
    p.start ≠ j := by
  obtain ⟨pos, -, solid, -, -⟩ := run
  rintro rfl
  have word := solid p.start le_rfl (by omega)
  rcases ends with h | space
  · have := lt_length_of_spaceAt word
    omega
  · simp [word] at space

/-- Two maximal runs with one start are equal. -/
theorem IsMaximalRun.eq_of_start_eq {l : List Byte} {p q : Span} (hp : IsMaximalRun l p) (hq : IsMaximalRun l q)
    (h : p.start = q.start) : p = q := by
  obtain ⟨-, hpl, psolid, -, pends⟩ := hp
  obtain ⟨-, hql, qsolid, -, qends⟩ := hq
  have := psolid.le_of_endsRun hpl qends (by omega)
  have := qsolid.le_of_endsRun hql pends (by omega)
  cases p; cases q
  simp only [Span.mk.injEq] at *
  omega

/-- What the scan of R123 keeps at index `a`: `cs` is what is left of the line, and the token being read (or, when none
is, the next one that could begin) starts at a token boundary and holds no whitespace so far. -/
structure Scanning (l : List Byte) (a : Nat) (open? : Option Nat) (cs : List Byte) : Prop where
  rest : l.drop a = cs
  le : a ≤ l.length
  open_lt : ∀ s, open? = some s → s < a
  starts : StartsRun l (open?.getD a)
  solid : Solid l (open?.getD a) a

namespace Scanning

variable {l cs : List Byte} {a s : Nat} {open? : Option Nat} {c : Byte}

theorem initial (l : List Byte) : Scanning l 0 none l :=
  ⟨rfl, Nat.zero_le _, by simp, .inl rfl, fun _ _ h => absurd h (Nat.not_lt_zero _)⟩

theorem spaceAt_head (h : Scanning l a open? (c :: cs)) : spaceAt l a = some (isSpace c) := by
  have head : l[a]? = some c := by rw [← List.head?_drop, h.rest, List.head?_cons]
  simp [spaceAt, head]

theorem drop_succ (h : Scanning l a open? (c :: cs)) : l.drop (a + 1) = cs := by
  rw [← List.tail_drop, h.rest, List.tail_cons]

/-- With no byte left the scan is at the line's end. -/
theorem eq_length (h : Scanning l a open? []) : a = l.length :=
  le_antisymm h.le (List.drop_eq_nil_iff.mp h.rest)

theorem start_lt_of_end {p : Span} (h : Scanning l a open? []) (run : IsMaximalRun l p) : p.start < a := by
  obtain ⟨pos, le, -⟩ := run
  have := h.eq_length
  omega

/-- Past a byte of WS no token is being read. -/
theorem space (h : Scanning l a open? (c :: cs)) (hc : isSpace c = true) : Scanning l (a + 1) none cs where
  rest := h.drop_succ
  le := lt_length_of_spaceAt h.spaceAt_head
  open_lt := by simp
  starts := .inr (by simpa [hc] using h.spaceAt_head)
  solid := fun i hi hlt => absurd hlt (Nat.not_lt.mpr hi)

/-- Past a byte not in WS the token being read goes on, or the byte begins one. -/
theorem word (h : Scanning l a open? (c :: cs)) (hc : isSpace c = false) :
    Scanning l (a + 1) (some (open?.getD a)) cs where
  rest := h.drop_succ
  le := lt_length_of_spaceAt h.spaceAt_head
  open_lt := by
    rintro _ ⟨⟩
    cases open? with
    | none => exact Nat.lt_succ_self a
    | some s => exact Nat.lt_succ_of_lt (h.open_lt s rfl)
  starts := h.starts
  solid := by
    intro i hi hlt
    rcases Nat.lt_succ_iff_lt_or_eq.mp hlt with hlt | rfl
    · exact h.solid i hi hlt
    · rw [h.spaceAt_head, hc]

/-- Where the token being read ends, its place is a maximal run. -/
theorem isMaximalRun (h : Scanning l a (some s) cs) (ends : EndsRun l a) : IsMaximalRun l ⟨s, a - s⟩ := by
  have hs := h.open_lt s rfl
  have stop : s + (a - s) = a := by omega
  refine ⟨?_, ?_, ?_, h.starts, ?_⟩ <;> simp only [stop]
  · omega
  · exact h.le
  · exact h.solid
  · exact ends

/-- Where the token being read ends, the maximal runs from its start on are itself and those further on. -/
theorem isMaximalRun_from_iff (h : Scanning l a (some s) cs) (ends : EndsRun l a) (p : Span) :
    IsMaximalRun l p ∧ s ≤ p.start ↔ p = ⟨s, a - s⟩ ∨ IsMaximalRun l p ∧ a + 1 ≤ p.start := by
  have own := h.isMaximalRun ends
  have hs := h.open_lt s rfl
  constructor
  · rintro ⟨run, le⟩
    have ⟨_, _, _, starts, _⟩ := run
    rcases h.solid.eq_or_le_of_startsRun starts le with eq | past
    · exact .inl (run.eq_of_start_eq own eq)
    · exact .inr ⟨run, past.lt_of_ne' (run.start_ne ends)⟩
  · rintro (rfl | ⟨run, le⟩)
    · exact ⟨own, le_rfl⟩
    · exact ⟨run, by omega⟩

end Scanning

/-- From a scan that keeps `Scanning`, the tokens found are the maximal runs from the token being read on. -/
theorem mem_scanTokens_iff {l cs : List Byte} {a : Nat} {open? : Option Nat} (h : Scanning l a open? cs) (p : Span) :
    p ∈ scanTokens a open? cs ↔ IsMaximalRun l p ∧ open?.getD a ≤ p.start := by
  fun_induction scanTokens a open? cs with
  | case1 a =>
    simpa using fun run : IsMaximalRun l p => h.start_lt_of_end run
  | case2 a s =>
    rw [Option.getD_some, h.isMaximalRun_from_iff (.inl h.eq_length) p]
    have no : ¬ (IsMaximalRun l p ∧ a + 1 ≤ p.start) := fun ⟨run, le⟩ => (h.start_lt_of_end run).not_gt le
    rw [or_iff_left no, List.mem_singleton]
  | case3 a c cs hc ih =>
    have ends : EndsRun l a := .inr (by rw [h.spaceAt_head, hc])
    rw [ih (h.space hc)]
    refine and_congr_right fun run => ?_
    have := run.start_ne ends
    simp only [Option.getD_none]
    omega
  | case4 a c cs s hc ih =>
    have ends : EndsRun l a := .inr (by rw [h.spaceAt_head, hc])
    rw [List.mem_cons, ih (h.space hc), Option.getD_some, h.isMaximalRun_from_iff ends p, Option.getD_none]
  | case5 a c cs hc ih => exact ih (h.word hc)
  | case6 a c cs s hc ih => exact ih (h.word hc)

/-- The scan lists the tokens in order of position, a byte of WS between one and the next. -/
theorem scanTokens_pairwise {l cs : List Byte} {a : Nat} {open? : Option Nat} (h : Scanning l a open? cs) :
    (scanTokens a open? cs).Pairwise fun p q => p.start + p.len < q.start := by
  fun_induction scanTokens a open? cs with
  | case1 a => exact .nil
  | case2 a s => exact List.pairwise_singleton ..
  | case3 a c cs hc ih => exact ih (h.space hc)
  | case4 a c cs s hc ih =>
    refine .cons (fun q hq => ?_) (ih (h.space hc))
    have hs := h.open_lt s rfl
    obtain ⟨-, le⟩ := (mem_scanTokens_iff (h.space hc) q).mp hq
    simp only [Option.getD_none] at le ⊢
    omega
  | case5 a c cs hc ih => exact ih (h.word hc)
  | case6 a c cs s hc ih => exact ih (h.word hc)

theorem isSpace_iff_mem (c : Byte) :
    isSpace c = true ↔ c ∈ ([0x20, 0x09, 0x0A, 0x0B, 0x0C, 0x0D] : List Byte) := by
  simp [isSpace, or_assoc]

theorem mem_tokens_iff (line : List Byte) (p : Span) : p ∈ tokens line ↔ IsMaximalRun (strip line) p := by
  simp [tokens, mem_scanTokens_iff (Scanning.initial (strip line))]

/-- Settles O14: the scan keeps `Scanning`, from which its tokens are the maximal runs, one after the other. -/
theorem tokensAreMaximalRuns : Obligations.TokensAreMaximalRuns := by
  unfold Obligations.TokensAreMaximalRuns
  simp only [← spaceAt_eq_some_iff]
  exact ⟨isSpace_iff_mem, fun line => ⟨mem_tokens_iff line, scanTokens_pairwise (.initial (strip line))⟩⟩

end Sys2Proof
end

section
/-! SUPPORT and PROOF. The pieces of a text and their output (48_program_driver.md R291, R292, R296): a text cut at a line
end is cut into the pieces of its parts, and the output of a list of lines is that of its parts, the numbers counting on. -/

namespace Sys2Proof.Machine

/-! ### The next piece -/

theorem takePiece_append_rest (room : Nat) (text : List Byte) :
    (takePiece room text).1 ++ (takePiece room text).2 = text := by
  fun_induction takePiece room text with
  | case1 text => rfl
  | case2 room => rfl
  | case3 room cs => rfl
  | case4 room c cs hc ih => simpa using ih

theorem takePiece_length_le (room : Nat) (text : List Byte) : (takePiece room text).1.length ≤ room := by
  fun_induction takePiece room text with
  | case1 text => simp
  | case2 room => simp
  | case3 room cs => simp
  | case4 room c cs hc ih => simpa using ih

/-- A piece of a text with bytes left takes one of them at least. -/
theorem takePiece_rest_length_lt (c : Byte) (cs : List Byte) :
    (takePiece Config.lineMax (c :: cs)).2.length < (c :: cs).length := by
  have piece : (takePiece Config.lineMax (c :: cs)).1 ≠ [] := by
    simp only [Config.lineMax, takePiece]
    split <;> simp
  have whole := congrArg List.length (takePiece_append_rest Config.lineMax (c :: cs))
  rw [List.length_append] at whole
  have := List.length_pos_iff.mpr piece
  omega

/-- The first piece of a text with a terminator does not depend on what follows the text. -/
theorem takePiece_append (room : Nat) {t1 : List Byte} (h : (0x0A : Byte) ∈ t1) (t2 : List Byte) :
    takePiece room (t1 ++ t2) = ((takePiece room t1).1, (takePiece room t1).2 ++ t2) := by
  fun_induction takePiece room t1 with
  | case1 text => simp [takePiece]
  | case2 room => simp at h
  | case3 room cs => simp [takePiece]
  | case4 room c cs hc ih =>
    have later : (0x0A : Byte) ∈ cs := (List.mem_cons.mp h).resolve_left (Ne.symm hc)
    rw [List.cons_append, takePiece, if_neg hc, ih later]

/-- The text is empty or ends with a terminator (log entry 25). -/
def EndsLine (text : List Byte) : Prop := text = [] ∨ text.getLast? = some 0x0A

/-- What is left of such a text after its first piece is such a text. -/
theorem EndsLine.rest {text : List Byte} (h : EndsLine text) (room : Nat) : EndsLine (takePiece room text).2 := by
  rcases List.eq_nil_or_concat (takePiece room text).2 with nil | ⟨init, last, eq⟩
  · exact .inl nil
  · have whole := takePiece_append_rest room text
    rw [eq, List.concat_eq_append, ← List.append_assoc] at whole
    rcases h with rfl | h
    · simp at whole
    · rw [← whole, List.getLast?_concat] at h
      exact .inr (by simpa [eq] using h)

/-! ### All pieces -/

/-- With fuel for every byte of the text, more fuel changes nothing. -/
theorem cutPieces_fuel {fuel fuel' : Nat} {text : List Byte} (enough : text.length ≤ fuel)
    (enough' : text.length ≤ fuel') : cutPieces fuel text = cutPieces fuel' text := by
  fun_induction cutPieces fuel text generalizing fuel' with
  | case1 text =>
    obtain rfl := List.length_eq_zero_iff.mp (Nat.le_zero.mp enough)
    cases fuel' <;> rfl
  | case2 fuel => cases fuel' <;> rfl
  | case3 fuel c cs ih =>
    have shorter := takePiece_rest_length_lt c cs
    cases fuel' with
    | zero => simp at enough'
    | succ fuel' => rw [cutPieces, ih (fuel' := fuel') (by omega) (by omega)]

theorem linePieces_cons (c : Byte) (cs : List Byte) :
    linePieces (c :: cs) =
      (takePiece Config.lineMax (c :: cs)).1 :: linePieces (takePiece Config.lineMax (c :: cs)).2 := by
  have shorter := Nat.le_of_lt_succ (takePiece_rest_length_lt c cs)
  exact congrArg _ (cutPieces_fuel shorter le_rfl)

/-- A text cut at a line end is cut into the pieces of its parts. -/
theorem linePieces_append {t1 : List Byte} (h : EndsLine t1) (t2 : List Byte) :
    linePieces (t1 ++ t2) = linePieces t1 ++ linePieces t2 := by
  induction len : t1.length using Nat.strong_induction_on generalizing t1 with
  | _ n ih =>
    cases t1 with
    | nil => rfl
    | cons c cs =>
      have terminated : (0x0A : Byte) ∈ c :: cs := List.mem_of_getLast? (h.resolve_left (by simp))
      have cut := takePiece_append Config.lineMax terminated t2
      have rest := ih _ (len ▸ takePiece_rest_length_lt c cs) (h.rest Config.lineMax) rfl
      rw [List.cons_append] at cut ⊢
      rw [linePieces_cons, linePieces_cons, cut, rest, List.cons_append]

/-! ### Their output -/

theorem assembleLines_append (n : Nat) (l1 l2 : List (List Byte)) :
    assembleLines n (l1 ++ l2) =
      ((assembleLines n l1).1 ++ (assembleLines (n + l1.length) l2).1,
        (assembleLines n l1).2 ++ (assembleLines (n + l1.length) l2).2) := by
  induction l1 generalizing n with
  | nil => simp [assembleLines]
  | cons line rest ih =>
    have count : n + (line :: rest).length = n + 1 + rest.length := by rw [List.length_cons]; omega
    rw [List.cons_append, count]
    simp only [assembleLines, ih]
    cases lineResult line <;> simp

/-- Lines delivered before only move the line numbers. -/
theorem assembleLines_add (n m : Nat) (lines : List (List Byte)) :
    assembleLines (n + m) lines =
      ((assembleLines n lines).1, (assembleLines n lines).2.map fun d => { d with lineNo := d.lineNo + m }) := by
  induction lines generalizing n with
  | nil => rfl
  | cons line rest ih =>
    have count : n + m + 1 = n + 1 + m := by omega
    simp only [assembleLines, count, ih]
    cases lineResult line <;> simp

end Sys2Proof.Machine

namespace Sys2Proof

open Machine

/-- Settles O57: the pieces of the text are those of its parts, and the second part's lines count on from the first's. -/
theorem assembleSplitsAtLineEnd : Obligations.AssembleSplitsAtLineEnd := by
  intro t1 t2 h
  have later := assembleLines_add 0 (linePieces t1).length (linePieces t2)
  simp only [assembleText, linePieces_append h t2, assembleLines_append, later, and_self]

end Sys2Proof
end

section
/-! SUPPORT and PROOF. What CompileLine leaves behind, as a function of the line and of the state before it (R260): which
registers the line alone decides, and which STATUS and record it can end with. -/

namespace Sys2Proof.Machine

/-! ### An instruction's meaning, by its operand's form -/

@[simp] theorem assembleInstr_absent (k : OpOrdinal) (s : State) : assembleInstr k .absent s =
    emitRecord (encodeRec k absentOperand) { s with core := s.core.putAbsent } := rfl
@[simp] theorem assembleInstr_value (k : OpOrdinal) (v : Word) (s : State) : assembleInstr k (.value v) s =
    emitRecord (encodeRec k v) { s with core := s.core.putOperand v } := rfl
@[simp] theorem assembleInstr_malformed (k : OpOrdinal) (s : State) : assembleInstr k .malformed s =
    raise .malformedNumber true { s with core := s.core.putPstat 1 } := rfl
@[simp] theorem assembleInstr_outOfRange (k : OpOrdinal) (s : State) : assembleInstr k .outOfRange s =
    raise .numberOutOfRange true { s with core := s.core.putPstat 2 } := rfl

/-! ### CompileLine as a function of the line and the state -/

/-- The state CompileLine leaves after a line with these bytes (R260). -/
def compiled (line : List Byte) (s : State) : State :=
  match decodeLine line with
  | .blank => finishBlank { s with core := s.core.scanned line }
  | .unknown => raise .unknownMnemonic false { s with core := s.core.scanned line }
  | .instr i => assembleInstr i.ordinal i.operand { s with core := (s.core.scanned line).putHit i.ordinal }

theorem compileBytes_eq_compiled (line : List Byte) (s : State) : compileBytes line s = .next (compiled line s) := by
  unfold compileBytes compiled
  cases decodeLine line with
  | blank => rfl
  | unknown => rfl
  | instr i => exact exec_eq_assembleInstr _ _

/-! ### Registers that no end of the line touches -/

@[simp] theorem compiled_host (line : List Byte) (s : State) : (compiled line s).host = s.host := by
  unfold compiled; split <;> simp

@[simp] theorem compiled_turn (line : List Byte) (s : State) : (compiled line s).turn = .act := by
  unfold compiled; split <;> simp

@[simp] theorem compiled_line (line : List Byte) (s : State) : (compiled line s).core.line = s.core.line := by
  unfold compiled; split <;> simp

@[simp] theorem compiled_lineLen (line : List Byte) (s : State) :
    (compiled line s).core.lineLen = s.core.lineLen := by
  unfold compiled; split <;> simp

@[simp] theorem compiled_effLen (line : List Byte) (s : State) :
    (compiled line s).core.effLen = Sys2Proof.effLen line := by
  unfold compiled; split <;> simp

@[simp] theorem compiled_ntok (line : List Byte) (s : State) :
    (compiled line s).core.ntok = BitVec.ofNat 2 (min 2 (tokens line).length) := by
  unfold compiled; split <;> simp

@[simp] theorem compiled_tok0 (line : List Byte) (s : State) :
    (compiled line s).core.tok0 = (tokens line)[0]?.getD s.core.tok0 := by
  unfold compiled; split <;> simp

@[simp] theorem compiled_tok1 (line : List Byte) (s : State) :
    (compiled line s).core.tok1 = (tokens line)[1]?.getD s.core.tok1 := by
  unfold compiled; split <;> simp

/-! ### What the line alone decides -/

/-- A line led by a token that names no mnemonic has that token. -/
theorem exists_token_of_unknown {line : List Byte} (h : decodeLine line = .unknown) :
    ∃ p, (tokens line)[0]? = some p := by
  cases ht : tokens line with
  | nil => simp [(decodeLine_eq_blank line).mpr ht] at h
  | cons p ps => exact ⟨p, rfl⟩

/-- A line whose instruction has an operand has a second token. -/
theorem exists_token_of_operand {line : List Byte} {i : Instr} (h : decodeLine line = .instr i)
    (present : i.operand ≠ .absent) : ∃ p, (tokens line)[1]? = some p := by
  rcases ht : tokens line with _ | ⟨p, _ | ⟨q, ps⟩⟩
  · simp [(decodeLine_eq_blank line).mpr ht] at h
  · simp only [decodeLine, ht, decodeTokens] at h
    cases hk : lookupMnemonic (slice line p) with
    | none => simp [hk] at h
    | some k =>
      obtain rfl : Instr.ofOrdinal k .absent = i := by simpa [hk] using h
      simp at present
  · exact ⟨q, rfl⟩

/-- The line decides whether CompileLine succeeds, with a record or without, or fails, and on which of its tokens. -/
theorem compiled_status_cases (line : List Byte) :
    (∃ emit, ∀ s, (compiled line s).core.status = Status.success emit s.draws) ∨
    ∃ c second p, c ≠ .none ∧ p ∈ tokens line ∧ ∀ s, (compiled line s).core.status = Status.failure c second p := by
  cases hd : decodeLine line with
  | blank => exact .inl ⟨false, fun s => by simp [compiled, hd]⟩
  | unknown =>
    obtain ⟨p, hp⟩ := exists_token_of_unknown hd
    exact .inr ⟨.unknownMnemonic, false, p, by decide, List.mem_of_getElem? hp, fun s => by simp [compiled, hd, hp]⟩
  | instr i =>
    have second := exists_token_of_operand hd
    cases ho : i.operand with
    | absent => exact .inl ⟨true, fun s => by simp [compiled, hd, ho]⟩
    | value v => exact .inl ⟨true, fun s => by simp [compiled, hd, ho]⟩
    | malformed =>
      obtain ⟨p, hp⟩ := second (by simp [ho])
      exact .inr ⟨.malformedNumber, true, p, by decide, List.mem_of_getElem? hp,
        fun s => by simp [compiled, hd, ho, hp]⟩
    | outOfRange =>
      obtain ⟨p, hp⟩ := second (by simp [ho])
      exact .inr ⟨.numberOutOfRange, true, p, by decide, List.mem_of_getElem? hp,
        fun s => by simp [compiled, hd, ho, hp]⟩

/-- The line decides the record: one that Encode gives, or none, and then REC0 and REC1 stay. -/
theorem compiled_record_cases (line : List Byte) :
    (∃ k v, ∀ s, (compiled line s).core.rec0 = (encodeRec k v).1 ∧ (compiled line s).core.rec1 = (encodeRec k v).2) ∨
    ∀ s, (compiled line s).core.rec0 = s.core.rec0 ∧ (compiled line s).core.rec1 = s.core.rec1 ∧
      (compiled line s).core.status.emit = false := by
  cases hd : decodeLine line with
  | blank => exact .inr fun s => by simp [compiled, hd]
  | unknown => exact .inr fun s => by simp [compiled, hd]
  | instr i =>
    cases ho : i.operand with
    | absent => exact .inl ⟨i.ordinal, absentOperand, fun s => by simp [compiled, hd, ho]⟩
    | value v => exact .inl ⟨i.ordinal, v, fun s => by simp [compiled, hd, ho]⟩
    | malformed => exact .inr fun s => by simp [compiled, hd, ho]
    | outOfRange => exact .inr fun s => by simp [compiled, hd, ho]

/-- The line decides the registers that CompileLine clears first (R261). PSTAT is one of the parser's three codes. -/
theorem compiled_transients (line : List Byte) :
    ∃ v present p hit, p ≠ 3 ∧ ∀ s, (compiled line s).core.opnd = v ∧
      (compiled line s).core.opndPresent = present ∧ (compiled line s).core.pstat = p ∧
      (compiled line s).core.hit = hit := by
  cases hd : decodeLine line with
  | blank => exact ⟨absentOperand, false, 0, false, by decide, fun s => by simp [compiled, hd]⟩
  | unknown => exact ⟨absentOperand, false, 0, false, by decide, fun s => by simp [compiled, hd]⟩
  | instr i =>
    cases ho : i.operand with
    | absent => exact ⟨absentOperand, false, 0, true, by decide, fun s => by simp [compiled, hd, ho]⟩
    | value v => exact ⟨v, true, 0, true, by decide, fun s => by simp [compiled, hd, ho]⟩
    | malformed => exact ⟨absentOperand, false, 1, true, by decide, fun s => by simp [compiled, hd, ho]⟩
    | outOfRange => exact ⟨absentOperand, false, 2, true, by decide, fun s => by simp [compiled, hd, ho]⟩

/-! ### CORE's step -/

theorem length_of_lineBytes {r : CoreRegs} {line : List Byte} (h : r.lineBytes = some line) :
    line.length = r.lineLen :=
  Memory.readBytes_length _ _ _ _ h

/-- Every token of the line in LINE ends within it. -/
theorem token_end_le_lineLen {r : CoreRegs} {line : List Byte} (h : r.lineBytes = some line) {p : Span}
    (hp : p ∈ tokens line) : p.start + p.len ≤ r.lineLen := by
  have bounds := (mem_tokens_bounds line p hp).2
  have := effLen_le_length line
  have := length_of_lineBytes h
  omega

/-- CORE's step, when it answers, leaves what CompileLine leaves after the line in LINE. -/
theorem step_of_compile {s t : State} (turn : s.turn = .compile) (h : step s = .next t) :
    ∃ line, s.core.lineBytes = some line ∧ t = compiled line s := by
  simp only [step, turn] at h
  obtain ⟨line, hl, -, h⟩ := compileLine_next h
  rw [compileBytes_eq_compiled] at h
  cases h
  exact ⟨line, hl, rfl⟩

/-- CORE's step on a line that is ready. -/
theorem eq_compiled_of_lineReady {s t : State} {line : List Byte} (ready : Claims.LineReady s line)
    (h : step s = .next t) : t = compiled line s := by
  obtain ⟨turn, hl, -⟩ := ready
  obtain ⟨line', hl', rfl⟩ := step_of_compile turn h
  cases hl.symm.trans hl'
  rfl

end Sys2Proof.Machine

namespace Sys2Proof

open Machine

/-- Settles O27: every meaning is `assembleInstr`, whose four operand forms write PSTAT, OPND, OPND_PRESENT, the record
and STATUS only. -/
theorem instructionFrame : Obligations.InstructionFrame := by
  intro i s t h
  rw [exec_eq_assembleInstr] at h
  cases h
  refine ⟨by simp, by simp, by simp, by simp, by simp, by simp, by simp, by simp, by simp, ?_, ?_⟩
  · intro absent
    simp [absent]
  · rintro (malformed | outOfRange)
    · simp [malformed]
    · simp [outOfRange]

/-- Settles O34: STATUS is a success's or names a condition and a token of the line. -/
theorem statusAlwaysLegal : Obligations.StatusAlwaysLegal := by
  intro s t turn h
  obtain ⟨line, hl, rfl⟩ := step_of_compile turn h
  rcases compiled_status_cases line with ⟨emit, success⟩ | ⟨c, second, p, hc, hp, failure⟩
  · rw [success s]
    refine ⟨rfl, ?_, fun _ => ⟨Nat.mod_lt _ (by positivity), Nat.mod_lt _ (by positivity)⟩⟩
    cases emit <;> simp
  · rw [failure s]
    refine ⟨rfl, ?_, fun inv => ?_⟩
    · cases c with
      | none => exact absurd rfl hc
      | unknownMnemonic => simp
      | malformedNumber => simp
      | numberOutOfRange => simp
    · have := token_end_le_lineLen hl hp
      have := inv.lineFits
      have := lineMax_lt_two_pow_indexBits
      simp only [Status.failure_errTokS, Status.failure_errTokN]
      omega

/-- Settles O35: what CompileLine leaves in these registers, the line alone decides. -/
theorem equalLinesEqualResults : Obligations.EqualLinesEqualResults := by
  intro s s' t t' line ready ready' h h'
  rw [eq_compiled_of_lineReady ready h, eq_compiled_of_lineReady ready' h']
  have records : (compiled line s).core.status.emit = true →
      (compiled line s).core.rec0 = (compiled line s').core.rec0 ∧
      (compiled line s).core.rec1 = (compiled line s').core.rec1 := by
    intro emit
    rcases compiled_record_cases line with ⟨k, v, encoded⟩ | kept
    · simp [encoded]
    · simp [kept] at emit
  obtain ⟨v, present, p, hit, -, transients⟩ := compiled_transients line
  refine ⟨?_, ?_, ?_, records, ?_, by simp [transients]⟩ <;>
    rcases compiled_status_cases line with ⟨emit, status⟩ | ⟨c, second, p, -, -, status⟩ <;> simp [status]

end Sys2Proof
end

section
/-! SUPPORT and PROOF. The STATUS word: the flags below bit 6, the two index fields above it (10_state.md R24). -/

namespace Sys2Proof.Machine

theorem Status.word_eq (L : Nat) (st : Status) :
    st.word L = st.done.toNat + 2 * st.ok.toNat + 4 * st.emit.toNat + 8 * st.err.code.toNat +
      32 * st.errTokIdx.toNat + 64 * (st.errTokS + 2 ^ L * st.errTokN) := by
  unfold Status.word
  ring

theorem testBit_eq_iff (w i : Nat) (b : Bool) : w.testBit i = b ↔ w / 2 ^ i % 2 = b.toNat := by
  rw [Nat.testBit_eq_decide_div_mod_eq]
  cases b <;> simp

end Sys2Proof.Machine

namespace Sys2Proof

open Machine

/-- Settles O38: the flags make up a sum below 64, and of the rest, `errTokS` is the remainder by `2 ^ L`, `errTokN` the
quotient. -/
theorem statusWordLayout : Obligations.StatusWordLayout := by
  intro L st hS hN
  have done := Bool.toNat_lt st.done
  have ok := Bool.toNat_lt st.ok
  have emit := Bool.toNat_lt st.emit
  have err := st.err.code.isLt
  have idx := Bool.toNat_lt st.errTokIdx
  have word := st.word_eq L
  have indexes : st.word L / 2 ^ 6 = st.errTokS + 2 ^ L * st.errTokN := by omega
  simp only [testBit_eq_iff, pow_add, ← Nat.div_div_eq_div_mul, indexes]
  refine ⟨by omega, by omega, by omega, by omega, by omega, ?_, ?_⟩
  · rw [Nat.add_mul_mod_self_left, Nat.mod_eq_of_lt hS]
  · rw [Nat.add_mul_div_left _ _ (Nat.two_pow_pos L), Nat.div_eq_of_lt hS, Nat.zero_add]

end Sys2Proof
end

section
/-! SUPPORT and PROOF. What the steps leave alone: a delivery all of CORE but the line, the loop OUT and DIAG but for their
ends. -/

namespace Sys2Proof

open Machine

/-- Settles O43: the bytes of the piece are written from address 0 on, up to LINE_LEN. -/
theorem deliveryFrame : Obligations.DeliveryFrame := by
  intro s t c cs turn input h
  simp only [step, turn, Host.Outcome.next.injEq] at h
  rcases deliver_cases s with ⟨empty, -⟩ | ⟨_, _, p, r, -, -, eq⟩
  · simp [empty] at input
  · obtain rfl : deliverPiece p r s = t := eq ▸ h
    exact ⟨fun a ha => Memory.read_writeBytes_other _ _ _ _ (.inr (by simpa using ha)), rfl, rfl⟩

/-- Settles O48: only the HOST's reaction to STATUS writes OUT and DIAG, each at its end, and only a delivery LINE_NO. -/
theorem outputOnlyGrows : Obligations.OutputOnlyGrows := by
  intro s t h notStartUp
  rcases step_next h with ⟨turn, -⟩ | ⟨-, rfl⟩ | ⟨turn, -⟩ | ⟨-, h⟩ | ⟨-, rfl⟩
  · exact absurd turn notStartUp
  · rcases deliver_cases s with ⟨-, eq⟩ | ⟨_, _, p, r, -, -, eq⟩ <;> simp [eq]
  · obtain ⟨line, -, rfl⟩ := step_of_compile turn h
    simp
  · rcases act_next h with ⟨-, rfl⟩ | ⟨-, _, -, rfl⟩ <;> simp
  · simp

end Sys2Proof
end

section
/-! SUPPORT and PROOF. Every step keeps the invariants of the line buffer and of CORE's results (10_state.md R22, R24,
20_memory.md R51, 43_instruction_encoder.md R191). A step writes CORE in two ways only: a delivery and CompileLine. -/

namespace Sys2Proof.Machine

/-- What a step can do to CORE: nothing, when the HOST starts up, acts or ends the run; a delivery; CompileLine. -/
theorem step_core_cases {s t : State} (h : step s = .next t) :
    (t.core = s.core ∧ (t.turn = .deliver ∨ t.turn = .ended)) ∨
    (∃ p r, p.length ≤ Config.lineMax ∧ t = deliverPiece p r s) ∨
    ∃ line, s.core.lineBytes = some line ∧ t = compiled line s := by
  rcases step_next h with ⟨-, h⟩ | ⟨-, rfl⟩ | ⟨turn, -⟩ | ⟨-, h⟩ | ⟨turn, rfl⟩
  · rcases startUp_next h with ⟨-, rfl⟩ | ⟨_, _, _, -, -, rfl⟩ | ⟨_, _, _, -, -, -, rfl⟩ <;> simp
  · rcases deliver_cases s with ⟨-, eq⟩ | ⟨c, cs, p, r, -, cut, eq⟩
    · simp [eq]
    · have short := takePiece_length_le Config.lineMax (c :: cs)
      rw [cut] at short
      exact .inr (.inl ⟨p, r, short, eq⟩)
  · exact .inr (.inr (step_of_compile turn h))
  · rcases act_next h with ⟨-, rfl⟩ | ⟨-, _, -, rfl⟩ <;> simp
  · exact .inl ⟨rfl, .inr turn⟩

/-! ### The line buffer -/

/-- The invariant speaks of CORE's registers only. -/
theorem State.BufferInv.of_core_eq {s t : State} (inv : s.BufferInv) (core : t.core = s.core) : t.BufferInv := by
  obtain ⟨_, _, _, _, _, _, _, _⟩ := inv
  constructor <;> rwa [core]

/-- A delivered piece of at most `LINE_MAX` bytes is written in full. -/
theorem deliverPiece_bufferInv {s : State} (inv : s.BufferInv) {p : List Byte} (short : p.length ≤ Config.lineMax)
    (r : List Byte) : (deliverPiece p r s).BufferInv where
  lineWf := Memory.writeBytes_wf _ _ _ inv.lineWf
  lineWritten a ha := by
    have read := Memory.read_writeBytes_inside s.core.line 0 a p ha
    rw [Nat.zero_add] at read
    simpa [read] using ha
  lineFits := short
  effFits := inv.effFits
  tok0Fits := inv.tok0Fits
  tok1Fits := inv.tok1Fits
  ntokLegal := inv.ntokLegal
  pstatLegal := inv.pstatLegal

/-- A token register holds a token of the line, or what it held before. -/
theorem getD_token_le {line : List Byte} {n bound : Nat} {old : Span} (hline : line.length ≤ bound)
    (hold : old.start + old.len ≤ bound) :
    ((tokens line)[n]?.getD old).start + ((tokens line)[n]?.getD old).len ≤ bound := by
  cases hp : (tokens line)[n]? with
  | none => exact hold
  | some p =>
    have := (mem_tokens_bounds line p (List.mem_of_getElem? hp)).2
    have := effLen_le_length line
    simp only [Option.getD_some]
    omega

/-- CompileLine on the line in LINE finds its indexes within that line. -/
theorem compiled_bufferInv {s : State} (inv : s.BufferInv) {line : List Byte} (hl : s.core.lineBytes = some line) :
    (compiled line s).BufferInv := by
  have length := length_of_lineBytes hl
  have fits : line.length ≤ Config.lineMax := length ▸ inv.lineFits
  obtain ⟨_, _, p, _, legal, transients⟩ := compiled_transients line
  obtain ⟨-, -, pstat, -⟩ := transients s
  exact {
    lineWf := by simpa using inv.lineWf
    lineWritten := by simpa using inv.lineWritten
    lineFits := by simpa using inv.lineFits
    effFits := by simpa using (effLen_le_length line).trans fits
    tok0Fits := by simpa using getD_token_le fits inv.tok0Fits
    tok1Fits := by simpa using getD_token_le fits inv.tok1Fits
    ntokLegal := by
      have : min 2 (tokens line).length < 3 := by omega
      rw [compiled_ntok]
      interval_cases min 2 (tokens line).length <;> decide
    pstatLegal := pstat ▸ legal }

/-! ### CORE's results -/

/-- Byte 1 of an encoded record holds an operand of its class (R87). -/
theorem exists_decodeOperand_encodeRec (k : OpOrdinal) (v : Word) :
    ∃ opd, decodeOperand k (encodeRec k v).2 = .ok opd := by
  unfold decodeOperand
  rcases widthClass_cases k with h | h | h
  · have zero : (encodeRec k v).2 = 0 := BitVec.eq_of_toNat_eq (encodeRec_snd_zero k v h)
    simp [h, zero]
  · have hi : (encodeRec k v).2.extractLsb' 4 4 = 0 := by
      apply BitVec.eq_of_toNat_eq
      rw [BitVec.extractLsb'_toNat, encodeRec_snd_register k v h, Nat.shiftRight_eq_div_pow,
        Nat.div_eq_of_lt (Nat.mod_lt _ (by decide))]
      rfl
    simp [h, hi]
  · simp [h]

/-- What Encode gives, the record decoder takes (R88). -/
theorem isRecord_encodeRec (k : OpOrdinal) (v : Word) : isRecord (encodeRec k v).1 (encodeRec k v).2 = true := by
  have nibbles : ∀ k : OpOrdinal, (k.zeroExtend 8).extractLsb' 4 4 = 0 ∧ (k.zeroExtend 8).extractLsb' 0 4 = k := by
    decide
  obtain ⟨hi, lo⟩ := nibbles k
  obtain ⟨opd, ok⟩ := exists_decodeOperand_encodeRec k v
  rw [encodeRec_fst]
  simp only [isRecord, decode, hi, lo, if_true, ok]

theorem Status.success_legal (emit : Bool) (draw : Nat) : (Status.success emit draw).legal = true := by
  cases emit <;> rfl

theorem Status.failure_legal {c : ErrCode} (hc : c ≠ .none) (second : Bool) (p : Span) :
    (Status.failure c second p).legal = true := by
  cases c with
  | none => exact absurd rfl hc
  | unknownMnemonic => rfl
  | malformedNumber => rfl
  | numberOutOfRange => rfl

/-- A legal STATUS of a failed line names a condition and gives no record (R24). -/
theorem Status.of_legal_of_failed {st : Status} (legal : st.legal = true) (failed : st.ok = false) :
    st.emit = false ∧ st.err ≠ .none := by
  unfold Status.legal at legal
  split at legal <;> simp_all

/-- CompileLine leaves an encoded record or the one before, and a STATUS that names a token of the line when it fails. -/
theorem compiled_resultInv {s : State} (inv : s.ResultInv) {line : List Byte} (hl : s.core.lineBytes = some line) :
    (compiled line s).ResultInv where
  recordLegal := by
    rcases compiled_record_cases line with ⟨k, v, encoded⟩ | kept
    · obtain ⟨rec0, rec1⟩ := encoded s
      rw [rec0, rec1, isRecord_encodeRec]
    · obtain ⟨rec0, rec1, -⟩ := kept s
      rw [rec0, rec1, inv.recordLegal]
  startedDone := by simp
  actDone _ := by
    rcases compiled_status_cases line with ⟨emit, status⟩ | ⟨c, second, p, -, -, status⟩ <;> simp [status]
  actLegal _ := by
    rcases compiled_status_cases line with ⟨emit, status⟩ | ⟨c, second, p, hc, -, status⟩
    · rw [status, Status.success_legal]
    · rw [status, Status.failure_legal hc]
  tokenInLine _ failed := by
    rcases compiled_status_cases line with ⟨emit, status⟩ | ⟨c, second, p, -, hp, status⟩
    · simp [status] at failed
    · simpa [status] using token_end_le_lineLen hl hp

end Sys2Proof.Machine

namespace Sys2Proof

open Machine

/-- Settles O52: a delivery writes the whole line, CompileLine's indexes lie within it, and no other step writes CORE. -/
theorem stepKeepsBufferInvariant : Obligations.StepKeepsBufferInvariant := by
  intro s t inv h
  rcases step_core_cases h with ⟨core, -⟩ | ⟨p, r, short, rfl⟩ | ⟨line, hl, rfl⟩
  · exact inv.of_core_eq core
  · exact deliverPiece_bufferInv inv short r
  · exact compiled_bufferInv inv hl

/-- Settles O53: CompileLine writes a legal STATUS and an encoded record, a delivery clears `done`, and no other step
writes CORE. -/
theorem stepKeepsResultInvariant : Obligations.StepKeepsResultInvariant := by
  intro s t inv h
  rcases step_core_cases h with ⟨core, turn⟩ | ⟨p, r, -, rfl⟩ | ⟨line, hl, rfl⟩
  · have record := inv.recordLegal
    rw [← core] at record
    rcases turn with turn | turn <;> exact ⟨record, by simp [turn], by simp [turn], by simp [turn], by simp [turn]⟩
  · exact ⟨inv.recordLegal, fun _ => rfl, by simp, by simp, by simp⟩
  · exact compiled_resultInv inv hl

end Sys2Proof
end

section
/-! SUPPORT and PROOF. Every step keeps the invariant of OUT, DIAG and the exit status (48_program_driver.md R296, R299 to
R302): one lemma for each thing a step can do to the HOST's state. -/

namespace Sys2Proof.Machine

/-- A record at the end of a sequence of records makes a sequence of records (R35). -/
theorem allRecords_append_record {out : List Byte} {b0 b1 : Byte} (all : allRecords out = true)
    (record : isRecord b0 b1 = true) : allRecords (out ++ [b0, b1]) = true := by
  fun_induction allRecords out with
  | case1 => simp [allRecords, record]
  | case2 b => simp at all
  | case3 c0 c1 rest ih =>
    obtain ⟨first, later⟩ := Bool.and_eq_true_iff.mp all
    simp [allRecords, first, ih later]

theorem State.inLoop_iff (s : State) : s.inLoop = true ↔ s.turn = .deliver ∨ s.turn = .compile ∨ s.turn = .act := by
  simp [State.inLoop, or_assoc]

theorem fatalExit_outputInv {s : State} (inv : s.OutputInv) (c : FatalCause) : (fatalExit c s).OutputInv where
  outRecords := by simp
  loopExit := by simp [State.inLoop_iff]
  exitReport := by simp
  loopHandles := by simp [State.inLoop_iff]
  counts := by simp
  pending := by simp
  diagCodes := inv.diagCodes
  diagLines := inv.diagLines

theorem enterLoop_outputInv (o i text : List Byte) (s : State) : (enterLoop o i text s).OutputInv where
  outRecords _ := rfl
  loopExit _ := rfl
  exitReport := by simp
  loopHandles _ := rfl
  counts := by simp
  pending := by simp
  diagCodes := by simp
  diagLines := by simp

theorem finishRun_outputInv {s : State} (inv : s.OutputInv) (exit : s.host.exit = 0) : (finishRun s).OutputInv where
  outRecords _ := inv.outRecords exit
  loopExit _ := rfl
  exitReport := by simpa [exit] using inv.exitReport
  loopHandles := by simp [State.inLoop_iff]
  counts _ := inv.counts exit
  pending := by simp
  diagCodes := inv.diagCodes
  diagLines := inv.diagLines

theorem deliverPiece_outputInv {s : State} (inv : s.OutputInv) (loop : s.inLoop = true) (p r : List Byte) :
    (deliverPiece p r s).OutputInv where
  outRecords := inv.outRecords
  loopExit _ := inv.loopExit loop
  exitReport := inv.exitReport
  loopHandles _ := inv.loopHandles loop
  counts exit := (inv.counts exit).trans (Nat.le_succ _)
  pending _ := Nat.lt_succ_of_le (inv.counts (inv.loopExit loop))
  diagCodes := inv.diagCodes
  diagLines d hd := ⟨(inv.diagLines d hd).1, (inv.diagLines d hd).2.trans (Nat.le_succ _)⟩

/-- CORE's step hands the turn to the HOST and leaves the HOST's state. -/
theorem compiled_outputInv {s : State} (inv : s.OutputInv) (turn : s.turn = .compile) (line : List Byte) :
    (compiled line s).OutputInv := by
  have loop : s.inLoop = true := by simp [State.inLoop_iff, turn]
  constructor <;> rw [compiled_host]
  · exact inv.outRecords
  · exact fun _ => inv.loopExit loop
  · exact inv.exitReport
  · exact fun _ => inv.loopHandles loop
  · exact inv.counts
  · exact fun _ => inv.pending (.inl turn)
  · exact inv.diagCodes
  · exact inv.diagLines

/-- A line that succeeds puts a record at the end of OUT, or nothing. -/
theorem appendRecord_outputInv {s : State} (inv : s.OutputInv) (turn : s.turn = .act)
    (record : isRecord s.core.rec0 s.core.rec1 = true) :
    { appendRecord s with turn := .deliver : State }.OutputInv := by
  have loop : s.inLoop = true := by simp [State.inLoop_iff, turn]
  have pending := inv.pending (.inr turn)
  exact {
    outRecords := by
      intro exit
      have all := inv.outRecords (by simpa using exit)
      cases emit : s.core.status.emit with
      | true => simpa [emit] using allRecords_append_record all record
      | false => simpa [emit] using all
    loopExit := by simp [inv.loopExit loop]
    exitReport := by simpa using inv.exitReport
    loopHandles := by simp [inv.loopHandles loop]
    counts := by
      intro _
      cases emit : s.core.status.emit with
      | true =>
        have out : (appendRecord s).host.out.length = s.host.out.length + 2 := by simp [emit]
        simp only [out, appendRecord_host_diag, appendRecord_host_lineNo]
        omega
      | false => simpa [emit] using pending.le
    pending := by simp
    diagCodes := by simpa using inv.diagCodes
    diagLines := by simpa using inv.diagLines }

/-- A line that fails puts one diagnostic at the end of DIAG. -/
theorem appendDiagnostic_outputInv {s : State} (inv : s.OutputInv) (turn : s.turn = .act)
    (condition : s.core.status.err ≠ .none) (token : List Byte) :
    { appendDiagnostic token s with turn := .deliver : State }.OutputInv := by
  have loop : s.inLoop = true := by simp [State.inLoop_iff, turn]
  have pending := inv.pending (.inr turn)
  exact {
    outRecords := inv.outRecords
    loopExit := fun _ => inv.loopExit loop
    exitReport := inv.exitReport
    loopHandles := fun _ => inv.loopHandles loop
    counts := by
      intro _
      simp only [appendDiagnostic_host_out, appendDiagnostic_host_diag, appendDiagnostic_host_lineNo,
        List.length_append, List.length_singleton]
      omega
    pending := by simp
    diagCodes := by
      intro d hd
      rcases List.mem_append.mp hd with hd | hd
      · exact inv.diagCodes d hd
      · obtain rfl := List.mem_singleton.mp hd
        exact condition
    diagLines := by
      intro d hd
      rcases List.mem_append.mp hd with hd | hd
      · exact inv.diagLines d hd
      · obtain rfl := List.mem_singleton.mp hd
        exact ⟨Nat.one_le_of_lt pending, le_rfl⟩ }

theorem appendRecord_of_not_emit {s : State} (emit : s.core.status.emit = false) : appendRecord s = s := by
  simp [appendRecord, emit]

end Sys2Proof.Machine

namespace Sys2Proof

open Machine

/-- Settles O54: a delivery counts the line, the HOST's reaction to it adds one record or one diagnostic at most, and
only a fatal error at the start-up sets exit status 1. -/
theorem stepKeepsOutputInvariant : Obligations.StepKeepsOutputInvariant := by
  intro s t results inv h
  rcases step_next h with ⟨-, h⟩ | ⟨turn, rfl⟩ | ⟨turn, -⟩ | ⟨turn, h⟩ | ⟨-, rfl⟩
  · rcases startUp_next h with ⟨-, rfl⟩ | ⟨_, _, c, -, -, rfl⟩ | ⟨o, i, text, -, -, -, rfl⟩
    · exact fatalExit_outputInv inv _
    · exact fatalExit_outputInv inv c
    · exact enterLoop_outputInv o i text s
  · have loop : s.inLoop = true := by simp [State.inLoop_iff, turn]
    rcases deliver_cases s with ⟨-, eq⟩ | ⟨_, _, p, r, -, -, eq⟩
    · exact eq ▸ finishRun_outputInv inv (inv.loopExit loop)
    · exact eq ▸ deliverPiece_outputInv inv loop p r
  · obtain ⟨line, -, rfl⟩ := step_of_compile turn h
    exact compiled_outputInv inv turn line
  · rcases act_next h with ⟨-, rfl⟩ | ⟨failed, token, -, rfl⟩
    · exact appendRecord_outputInv inv turn results.recordLegal
    · obtain ⟨emit, condition⟩ := Status.of_legal_of_failed (results.actLegal turn) failed
      rw [appendRecord_of_not_emit emit]
      exact appendDiagnostic_outputInv inv turn condition token
  · exact inv

end Sys2Proof
end

section
/-! SUPPORT and PROOF. The line buffer between the two agents (20_memory.md R50 to R58): CORE's step only reads it and
leaves the HOST's state, and the HOST answers a STATUS with a record, a diagnostic or nothing. -/

namespace Sys2Proof.Machine

theorem step_of_act {s : State} (turn : s.turn = .act) : step s = act s := by
  simp only [step, turn]

/-- A line that succeeds: its record, when it has one, goes to the end of OUT (R294). -/
theorem act_of_ok {s : State} (ok : s.core.status.ok = true) :
    act s = .next { s with
      host := { s.host with out := s.host.out ++ if s.core.status.emit then [s.core.rec0, s.core.rec1] else [] }
      turn := .deliver } := by
  simp only [act, ok, if_true, appendRecord]
  cases s.core.status.emit with
  | true => rfl
  | false => simp

/-- A line that fails: one diagnostic goes to the end of DIAG (R295). -/
theorem act_of_failed {s : State} (failed : s.core.status.ok = false) (emit : s.core.status.emit = false)
    {token : List Byte} (named : offendingToken s.core = some token) :
    act s = .next { appendDiagnostic token s with turn := .deliver } := by
  simp [act, failed, named, appendRecord_of_not_emit emit]

end Sys2Proof.Machine

namespace Sys2Proof

open Machine

/-- Settles O36: CompileLine writes registers and STATUS only. -/
theorem coreStepKeepsLineAndHost : Obligations.CoreStepKeepsLineAndHost := by
  intro s t turn h
  obtain ⟨line, -, rfl⟩ := step_of_compile turn h
  simp

/-- Settles O37: the line is searched for 0x00 before CompileLine runs on it. -/
theorem zeroByteLineRefused : Obligations.ZeroByteLineRefused := by
  intro s line turn hl zero
  have found : line.contains 0 = true := by simpa using zero
  simp only [step, turn, compileLine, hl, found, if_true]

/-- Settles O39, by what the HOST does on a success. -/
theorem recordAppendedWhenEmitted : Obligations.RecordAppendedWhenEmitted := by
  intro s turn ok
  exact ⟨_, (step_of_act turn).trans (act_of_ok ok), rfl, rfl, rfl⟩

/-- Settles O40, by what the HOST does on a failure. -/
theorem failedLineOneDiagnostic : Obligations.FailedLineOneDiagnostic := by
  intro s token turn failed emit named
  exact ⟨_, (step_of_act turn).trans (act_of_failed failed emit named), rfl, rfl, rfl⟩

end Sys2Proof
end

section
/-! SUPPORT and PROOF. The result of a line depends on the bytes of its tokens only, and whitespace around a line leaves
those as they are (40_comment_stripper_tokenizer.md R124, 20_memory.md R53). -/

namespace Sys2Proof

/-- The bytes of all tokens of a line, in order. -/
def words (line : List Byte) : List (List Byte) := (tokens line).map (slice line)

/-- A line as an instruction, from the bytes of its first two tokens (R263 to R266). -/
def decodeWords : Option (List Byte) → Option (List Byte) → LineForm
  | none, _ => .blank
  | some name, operand =>
    match lookupMnemonic name with
    | none => .unknown
    | some k => .instr (Instr.ofOrdinal k (operand.elim .absent parseOperand))

theorem decodeLine_eq_decodeWords (line : List Byte) :
    decodeLine line = decodeWords (words line)[0]? (words line)[1]? := by
  simp only [decodeLine, words, List.getElem?_map]
  rcases tokens line with _ | ⟨p, _ | ⟨q, ps⟩⟩
  · rfl
  · rfl
  · rfl

theorem tokenBytes_eq (line : List Byte) (n : Nat) : Machine.tokenBytes line n = (words line)[n]?.getD [] := by
  rw [Machine.tokenBytes, words, List.getElem?_map]
  cases (tokens line)[n]? with
  | none => rfl
  | some p => rfl

/-- The bytes of the first two tokens decide the result of a line (R266). -/
theorem lineResult_congr {l l' : List Byte} (h : ∀ n < 2, (words l)[n]? = (words l')[n]?) :
    Machine.lineResult l = Machine.lineResult l' := by
  simp only [Machine.lineResult, decodeLine_eq_decodeWords, tokenBytes_eq, h 0 (by decide), h 1 (by decide)]

/-! ### The comment and the whitespace around a line -/

theorem not_isComment_of_isSpace {w : Byte} (h : isSpace w = true) : isComment w = false := by
  revert w; decide

theorem strip_eq_takeWhile (line : List Byte) : strip line = line.takeWhile fun c => !isComment c := by
  unfold strip
  fun_induction effLen line with
  | case1 => rfl
  | case2 c cs hc => simp [hc]
  | case3 c cs hc ih => simp [hc, ih]

theorem strip_space_append {ws : List Byte} (space : ∀ w ∈ ws, isSpace w = true) (line : List Byte) :
    strip (ws ++ line) = ws ++ strip line := by
  have kept : ∀ w ∈ ws, (!isComment w) = true := fun w hw => by simp [not_isComment_of_isSpace (space w hw)]
  simp only [strip_eq_takeWhile, List.takeWhile_append_of_pos kept]

/-- Whitespace after a line is cut off with its comment, or stays when it has none. -/
theorem strip_append_space {ws : List Byte} (space : ∀ w ∈ ws, isSpace w = true) (line : List Byte) :
    strip (line ++ ws) = strip line ∨ strip (line ++ ws) = strip line ++ ws := by
  have kept : strip ws = ws := by simpa [strip, effLen] using strip_space_append space []
  simp only [strip_eq_takeWhile] at kept ⊢
  rw [List.takeWhile_append, kept]
  split
  next whole => exact .inr (by rw [List.IsPrefix.eq_of_length (List.takeWhile_prefix _) whole])
  next => exact .inl rfl

/-! ### The tokens of a line with whitespace around it -/

theorem scanTokens_space_append {ws : List Byte} (space : ∀ w ∈ ws, isSpace w = true) (a : Nat) (cs : List Byte) :
    scanTokens a none (ws ++ cs) = scanTokens (a + ws.length) none cs := by
  induction ws generalizing a with
  | nil => rfl
  | cons w ws ih =>
    obtain ⟨first, later⟩ := List.forall_mem_cons.mp space
    rw [List.cons_append, scanTokens, ih later, List.length_cons, Nat.add_right_comm, Nat.add_assoc]
    exact first

theorem scanTokens_space {ws : List Byte} (space : ∀ w ∈ ws, isSpace w = true) (a : Nat) :
    scanTokens a none ws = [] := by
  simpa [scanTokens] using scanTokens_space_append space a []

/-- Whitespace at the end closes the token being read, as the end of the line does. -/
theorem scanTokens_append_space {ws : List Byte} (space : ∀ w ∈ ws, isSpace w = true) (a : Nat) (open? : Option Nat)
    (cs : List Byte) : scanTokens a open? (cs ++ ws) = scanTokens a open? cs := by
  fun_induction scanTokens a open? cs with
  | case1 a => exact scanTokens_space space a
  | case2 a s =>
    cases ws with
    | nil => rfl
    | cons w ws =>
      obtain ⟨first, later⟩ := List.forall_mem_cons.mp space
      simp [scanTokens, first, scanTokens_space later]
  | case3 a c cs hc ih => simp [scanTokens, hc, ih]
  | case4 a c cs s hc ih => simp [scanTokens, hc, ih]
  | case5 a c cs hc ih => simp [scanTokens, hc, ih]
  | case6 a c cs s hc ih => simp [scanTokens, hc, ih]

/-- A place moved `n` bytes to the right. -/
def Span.shift (n : Nat) (p : Span) : Span := ⟨p.start + n, p.len⟩

theorem scanTokens_shift (n a : Nat) (open? : Option Nat) (cs : List Byte) :
    scanTokens (a + n) (open?.map (· + n)) cs = (scanTokens a open? cs).map (Span.shift n) := by
  fun_induction scanTokens a open? cs with
  | case1 a => rfl
  | case2 a s => simp [scanTokens, Span.shift, Nat.add_sub_add_right]
  | case3 a c cs hc ih => simpa [scanTokens, hc, Nat.add_right_comm] using ih
  | case4 a c cs s hc ih => simpa [scanTokens, hc, Nat.add_right_comm, Span.shift, Nat.add_sub_add_right] using ih
  | case5 a c cs hc ih => simpa [scanTokens, hc, Nat.add_right_comm] using ih
  | case6 a c cs s hc ih => simpa [scanTokens, hc, Nat.add_right_comm] using ih

theorem tokens_append_space {ws : List Byte} (space : ∀ w ∈ ws, isSpace w = true) (line : List Byte) :
    tokens (line ++ ws) = tokens line := by
  unfold tokens
  rcases strip_append_space space line with cut | kept
  · rw [cut]
  · rw [kept, scanTokens_append_space space]

theorem tokens_space_append {ws : List Byte} (space : ∀ w ∈ ws, isSpace w = true) (line : List Byte) :
    tokens (ws ++ line) = (tokens line).map (Span.shift ws.length) := by
  unfold tokens
  rw [strip_space_append space, scanTokens_space_append space, ← scanTokens_shift, Option.map_none]

/-! ### Their bytes -/

theorem slice_append_left {line : List Byte} {p : Span} (h : p.start + p.len ≤ line.length) (rest : List Byte) :
    slice (line ++ rest) p = slice line p := by
  rw [slice, slice, List.drop_append_of_le_length (by omega), List.take_append_of_le_length]
  rw [List.length_drop]
  omega

theorem slice_append_shift (l line : List Byte) (p : Span) : slice (l ++ line) (p.shift l.length) = slice line p := by
  simp [slice, Span.shift, Nat.add_comm p.start]

theorem words_append_space {ws : List Byte} (space : ∀ w ∈ ws, isSpace w = true) (line : List Byte) :
    words (line ++ ws) = words line := by
  rw [words, tokens_append_space space]
  refine List.map_congr_left fun p hp => slice_append_left ?_ ws
  exact (mem_tokens_bounds line p hp).2.trans (effLen_le_length line)

theorem words_space_append {ws : List Byte} (space : ∀ w ∈ ws, isSpace w = true) (line : List Byte) :
    words (ws ++ line) = words line := by
  rw [words, tokens_space_append space, List.map_map]
  exact List.map_congr_left fun p _ => slice_append_shift ws line p

/-- Settles O17: whitespace around a line moves its tokens at most, and their bytes decide the result. -/
theorem outerSpaceIgnored : Obligations.OuterSpaceIgnored := by
  intro line ws space
  exact ⟨lineResult_congr fun n _ => by rw [words_append_space space],
    lineResult_congr fun n _ => by rw [words_space_append space]⟩

end Sys2Proof
end

section
/-! SUPPORT and PROOF. The machine's steps over a text and `Assemble` of it (48_program_driver.md R296). Three steps deliver
a line, compile it and act on its result, which adds to OUT and DIAG what `assembleLines` says of that one line. -/

namespace Sys2Proof.Machine

/-! ### What CompileLine leaves for the HOST is the line's result -/

/-- The table of results (R268), against what CompileLine leaves in STATUS and in the record registers. -/
theorem lineResult_cases (line : List Byte) :
    (lineResult line = .nothing ∧ ∀ s, (compiled line s).core.status = Status.success false s.draws) ∨
    (∃ rec, lineResult line = .record rec ∧ ∀ s, (compiled line s).core.status = Status.success true s.draws ∧
      (compiled line s).core.rec0 = rec.1 ∧ (compiled line s).core.rec1 = rec.2) ∨
    ∃ c second p, lineResult line = .failed c (slice line p) ∧ p ∈ tokens line ∧
      ∀ s, (compiled line s).core.status = Status.failure c second p := by
  cases hd : decodeLine line with
  | blank => exact .inl ⟨by simp [lineResult, hd], fun s => by simp [compiled, hd]⟩
  | unknown =>
    obtain ⟨p, hp⟩ := exists_token_of_unknown hd
    exact .inr (.inr ⟨.unknownMnemonic, false, p, by simp [lineResult, hd, tokenBytes, hp], List.mem_of_getElem? hp,
      fun s => by simp [compiled, hd, hp]⟩)
  | instr i =>
    have second := exists_token_of_operand hd
    cases ho : i.operand with
    | absent =>
      exact .inr (.inl ⟨encodeRec i.ordinal absentOperand, by simp [lineResult, hd, ho],
        fun s => by simp [compiled, hd, ho]⟩)
    | value v =>
      exact .inr (.inl ⟨encodeRec i.ordinal v, by simp [lineResult, hd, ho], fun s => by simp [compiled, hd, ho]⟩)
    | malformed =>
      obtain ⟨p, hp⟩ := second (by simp [ho])
      exact .inr (.inr ⟨.malformedNumber, true, p, by simp [lineResult, hd, ho, tokenBytes, hp],
        List.mem_of_getElem? hp, fun s => by simp [compiled, hd, ho, hp]⟩)
    | outOfRange =>
      obtain ⟨p, hp⟩ := second (by simp [ho])
      exact .inr (.inr ⟨.numberOutOfRange, true, p, by simp [lineResult, hd, ho, tokenBytes, hp],
        List.mem_of_getElem? hp, fun s => by simp [compiled, hd, ho, hp]⟩)

/-- A place within bytes that can be read holds the slice of them. -/
theorem Memory.readBytes_slice {m : Memory} {n : Nat} {bs : List Byte} (h : Memory.readBytes m 0 n = some bs)
    {p : Span} (inside : p.start + p.len ≤ n) : Memory.readBytes m p.start p.len = some (slice bs p) := by
  obtain ⟨length, read⟩ := (Memory.readBytes_eq_some m 0 n bs).mp h
  refine (Memory.readBytes_eq_some _ _ _ _).mpr ⟨?_, fun i hi => ?_⟩
  · simp only [slice, List.length_take, List.length_drop]
    omega
  · have byte := read (p.start + i) (by omega)
    rw [Nat.zero_add] at byte
    rw [byte, slice, List.getElem?_take_of_lt hi, List.getElem?_drop]

/-- The token that STATUS names is read back from LINE as the line has it (R295). -/
theorem offendingToken_compiled {s : State} {line : List Byte} (hl : s.core.lineBytes = some line) {p : Span}
    (hp : p ∈ tokens line) {c : ErrCode} {second : Bool}
    (status : (compiled line s).core.status = Status.failure c second p) :
    offendingToken (compiled line s).core = some (slice line p) := by
  simpa [offendingToken, status] using Memory.readBytes_slice hl (token_end_le_lineLen hl hp)

/-! ### One line -/

/-- The HOST acts on a compiled line: OUT and DIAG grow by the output of that line, the `n + 1`-th. -/
theorem act_compiled {s : State} {line : List Byte} (hl : s.core.lineBytes = some line) {n : Nat}
    (count : s.host.lineNo = n + 1) :
    ∃ t, act (compiled line s) = .next t ∧ t.turn = .deliver ∧
      t.host = { s.host with
        out := s.host.out ++ (assembleLines n [line]).1
        diag := s.host.diag ++ (assembleLines n [line]).2 } := by
  rcases lineResult_cases line with ⟨result, status⟩ | ⟨rec, result, left⟩ | ⟨c, second, p, result, hp, status⟩
  · exact ⟨_, act_of_ok (by simp [status]), rfl, by simp [assembleLines, result, status]⟩
  · obtain ⟨status, rec0, rec1⟩ := left s
    exact ⟨_, act_of_ok (by simp [status]), rfl, by simp [assembleLines, result, status, rec0, rec1]⟩
  · have named := offendingToken_compiled hl hp (status s)
    exact ⟨_, act_of_failed (by simp [status]) (by simp [status]) named, rfl,
      by simp [assembleLines, result, status, appendDiagnostic, count]⟩

/-- Three steps from a state about to deliver take the first line of the text, and its output is added. -/
theorem run_line {s : State} (turn : s.turn = .deliver) {c : Byte} {cs p r : List Byte} (input : s.host.input = c :: cs)
    (cut : takePiece Config.lineMax (c :: cs) = (p, r)) (nonzero : (0 : Byte) ∉ p) :
    ∃ t, Claims.Runs 3 s t ∧ t.turn = .deliver ∧
      t.host = { s.host with
        lineNo := s.host.lineNo + 1
        input := r
        out := s.host.out ++ (assembleLines s.host.lineNo [p]).1
        diag := s.host.diag ++ (assembleLines s.host.lineNo [p]).2 } := by
  have present : (deliverPiece p r s).core.lineBytes = some p := CoreRegs.lineBytes_present s.core p
  obtain ⟨t, acted, next, host⟩ := act_compiled present rfl
  refine ⟨t, ?_, next, host⟩
  have delivered : step s = .next (deliverPiece p r s) := by simp only [step, turn, deliver, input, cut]
  have compiles : step (deliverPiece p r s) = .next (compiled p (deliverPiece p r s)) :=
    (compileLine_of_line present nonzero).trans (compileBytes_eq_compiled p _)
  have acts : step (compiled p (deliverPiece p r s)) = .next t := (step_of_act (compiled_turn _ _)).trans acted
  rw [Claims.Runs, run_of_step 2 delivered, run_of_step 1 compiles, run_of_step 0 acts]
  rfl

end Sys2Proof.Machine

namespace Sys2Proof

open Machine

/-- Settles O56, by induction on the text left: three steps for its first line, then the run of the rest, and one step to
end the run when nothing is left. -/
theorem runIsAssemble : Obligations.RunIsAssemble := by
  intro s turn nonzero
  induction len : s.host.input.length using Nat.strong_induction_on generalizing s with
  | _ n ih =>
    rcases deliver_cases s with ⟨empty, ends⟩ | ⟨c, cs, p, r, input, cut, -⟩
    · have last : step s = .next (finishRun s) := by simp only [step, turn, ends]
      rw [empty]
      exact ⟨finishRun s, run_of_step 0 last, by simp [linePieces, cutPieces, assembleLines]⟩
    · have whole := takePiece_append_rest Config.lineMax (c :: cs)
      have shorter := takePiece_rest_length_lt c cs
      have pieces := linePieces_cons c cs
      rw [cut] at whole shorter pieces
      rw [input, ← whole, List.mem_append, not_or] at nonzero
      obtain ⟨t, first, next, host⟩ := run_line turn input cut nonzero.1
      have left : t.host.input = r := by rw [host]
      have nonzero' : (0 : Byte) ∉ t.host.input := left ▸ nonzero.2
      obtain ⟨u, later, rest⟩ := ih r.length (by rwa [← len, input]) t next nonzero' (by rw [left])
      simp only [host] at later rest
      have steps : 3 * ((linePieces r).length + 1) + 1 = 3 + (3 * (linePieces r).length + 1) := by omega
      have output := assembleLines_append s.host.lineNo [p] (linePieces r)
      rw [List.singleton_append, List.length_singleton] at output
      rw [input, pieces, List.length_cons]
      refine ⟨u, ?_, ?_⟩
      · rw [Claims.Runs, steps, run_add first, later]
      · simpa [output, List.append_assoc, Nat.add_assoc, Nat.add_comm 1] using rest

end Sys2Proof
end

section
/-! SUPPORT and PROOF. Records (30_encoding.md R80 to R88): byte 1 is the operand modulo `2^WIDTH_CLASS`, the record decoder
takes exactly the bytes 1 below `2^WIDTH_CLASS`, and the operands it answers are those of the well-formed instructions. -/

namespace Sys2Proof

open Machine Claims

/-! ### The bytes of a record -/

/-- Byte 1 is the operand modulo `2^WIDTH_CLASS` (R191 to R194). -/
theorem encodeRec_snd_toNat (k : OpOrdinal) (v : Word) : (encodeRec k v).2.toNat = v.toNat % 2 ^ widthClass k := by
  rcases widthClass_cases k with h | h | h
  · rw [encodeRec_snd_zero k v h, h, pow_zero, Nat.mod_one]
  · rw [encodeRec_snd_register k v h, h]; rfl
  · rw [encodeRec_snd_address k v h, h]; rfl

theorem encodeRec_snd_lt (k : OpOrdinal) (v : Word) : (encodeRec k v).2.toNat < 2 ^ widthClass k := by
  rw [encodeRec_snd_toNat]
  exact Nat.mod_lt _ (Nat.two_pow_pos _)

/-- A value below `2^WIDTH_CLASS` is byte 1 as it stands. -/
theorem encodeRec_setWidth {k : OpOrdinal} {b1 : Byte} (h : b1.toNat < 2 ^ widthClass k) :
    encodeRec k (b1.setWidth 32) = (k.zeroExtend 8, b1) := by
  refine Prod.ext rfl (BitVec.eq_of_toNat_eq ?_)
  rw [encodeRec_snd_toNat, BitVec.toNat_setWidth_of_le (by decide), Nat.mod_eq_of_lt h]

/-- Byte 0 is an ordinal exactly when its high nibble is 0 (R80). -/
theorem highNibble_eq_zero_iff (b : Byte) : b.extractLsb' 4 4 = 0 ↔ b.toNat < 16 := by
  revert b; decide

theorem exists_ordinal_of_lt {b : Byte} (h : b.toNat < 16) : ∃ k : OpOrdinal, b = k.zeroExtend 8 := by
  revert b; decide

theorem highNibble_ordinal (k : OpOrdinal) : (k.zeroExtend 8).extractLsb' 4 4 = 0 := by
  revert k; decide

theorem lowNibble_ordinal (k : OpOrdinal) : (k.zeroExtend 8).extractLsb' 0 4 = k := by
  revert k; decide

/-! ### The operand of a record -/

/-- The operand of a record depends on the value modulo `2^WIDTH_CLASS` only. -/
theorem recordOperand_congr {k : OpOrdinal} {u v : Word}
    (h : u.toNat % 2 ^ widthClass k = v.toNat % 2 ^ widthClass k) : recordOperand k u = recordOperand k v := by
  rw [recordOperand, recordOperand, h]

/-- The record decoder takes a byte 1 below `2^WIDTH_CLASS` as the operand (R87). -/
theorem decodeOperand_of_lt {k : OpOrdinal} {b1 : Byte} (h : b1.toNat < 2 ^ widthClass k) :
    decodeOperand k b1 = .ok (recordOperand k (b1.setWidth 32)) := by
  unfold decodeOperand recordOperand
  rcases widthClass_cases k with w | w | w <;> rw [w] at h ⊢
  · have zero : b1 = 0 := BitVec.eq_of_toNat_eq (Nat.lt_one_iff.mp h)
    simp [zero]
  · have high : b1.extractLsb' 4 4 = 0 := (highNibble_eq_zero_iff b1).mpr h
    have low : (b1.extractLsb' 0 4).zeroExtend 32 = BitVec.ofNat 32 ((b1.setWidth 32).toNat % 2 ^ 4) := by
      apply BitVec.eq_of_toNat_eq
      simp
    simp [high, low]
  · have whole : (b1.setWidth 32).toNat % 2 ^ 8 = (b1.setWidth 32).toNat := by
      rw [BitVec.toNat_setWidth_of_le (by decide), Nat.mod_eq_of_lt h]
    rw [whole, BitVec.ofNat_toNat, BitVec.setWidth_eq]
    rfl

/-- The record decoder refuses any other byte 1, by the name of its class (R88 b, c). -/
theorem decodeOperand_of_le {k : OpOrdinal} {b1 : Byte} (h : 2 ^ widthClass k ≤ b1.toNat) :
    decodeOperand k b1 = .error (if widthClass k = 0 then .zeroOperandByte else .registerHighNibble) := by
  unfold decodeOperand
  rcases widthClass_cases k with w | w | w <;> rw [w] at h ⊢
  · have nonzero : b1 ≠ 0 := by rintro rfl; exact absurd h (by decide)
    exact if_neg nonzero
  · have high : b1.extractLsb' 4 4 ≠ 0 := fun zero => absurd ((highNibble_eq_zero_iff b1).mp zero) h.not_gt
    exact if_neg high
  · exact absurd b1.isLt h.not_gt

theorem decodeOperand_encodeRec (k : OpOrdinal) (v : Word) :
    decodeOperand k (encodeRec k v).2 = .ok (recordOperand k v) := by
  rw [decodeOperand_of_lt (encodeRec_snd_lt k v)]
  refine congrArg _ (recordOperand_congr ?_)
  rw [BitVec.toNat_setWidth_of_le (by decide), encodeRec_snd_toNat, Nat.mod_mod]

/-! ### The record decoder -/

/-- A record whose byte 0 is an ordinal is decided by byte 1. -/
theorem decode_ordinal (k : OpOrdinal) (b1 : Byte) (rest : List Byte) :
    decode (k.zeroExtend 8 :: b1 :: rest) = (decodeOperand k b1).map fun opd => (Instr.ofOrdinal k opd, rest) := by
  simp only [decode, highNibble_ordinal, lowNibble_ordinal, if_true]
  cases decodeOperand k b1 with
  | ok opd => rfl
  | error e => rfl

theorem decode_of_le {b0 : Byte} (h : 16 ≤ b0.toNat) (b1 : Byte) (rest : List Byte) :
    decode (b0 :: b1 :: rest) = .error .opcodeOutOfRange := by
  have high : b0.extractLsb' 4 4 ≠ 0 := fun zero => absurd ((highNibble_eq_zero_iff b0).mp zero) h.not_gt
  simp only [decode, high, if_false]

/-- Decoding an encoded record (R87). -/
theorem decode_encodeRec (k : OpOrdinal) (v : Word) (rest : List Byte) :
    decode ((encodeRec k v).1 :: (encodeRec k v).2 :: rest) = .ok (Instr.ofOrdinal k (recordOperand k v), rest) := by
  rw [encodeRec_fst, decode_ordinal, decodeOperand_encodeRec]
  rfl

/-- What the record decoder accepts begins with an encoded record, and it answers the instruction of that record. -/
theorem exists_encodeRec_of_decode {bytes rest : List Byte} {i : Instr} (h : decode bytes = .ok (i, rest)) :
    ∃ k v, bytes = (encodeRec k v).1 :: (encodeRec k v).2 :: rest ∧ i = Instr.ofOrdinal k (recordOperand k v) := by
  rcases bytes with _ | ⟨b0, _ | ⟨b1, tail⟩⟩
  · cases h
  · cases h
  · rcases lt_or_ge b0.toNat 16 with ordinal | beyond
    · obtain ⟨k, rfl⟩ := exists_ordinal_of_lt ordinal
      rcases lt_or_ge b1.toNat (2 ^ widthClass k) with fits | wide
      · rw [decode_ordinal, decodeOperand_of_lt fits] at h
        cases h
        exact ⟨k, b1.setWidth 32, by rw [encodeRec_setWidth fits], rfl⟩
      · rw [decode_ordinal, decodeOperand_of_le wide] at h
        cases h
    · rw [decode_of_le beyond] at h
      cases h

/-! ### Well-formed instructions -/

theorem Instr.wf_eq (i : Instr) :
    i.wf = if widthClass i.ordinal = 0 then decide (i.operand = .absent)
      else i.operand.fits (2 ^ widthClass i.ordinal) := by
  cases i <;> rfl

/-- A value fits below a bound of at most `2^32` exactly when it is a remainder by it. -/
theorem Operand.fits_iff {bound : Nat} (pos : 0 < bound) (le : bound ≤ 2 ^ 32) (o : Operand) :
    o.fits bound = true ↔ ∃ v : Word, o = .value (BitVec.ofNat 32 (v.toNat % bound)) := by
  cases o with
  | value u =>
    simp only [Operand.fits, decide_eq_true_eq, Operand.value.injEq]
    constructor
    · intro fits
      exact ⟨u, by simp [Nat.mod_eq_of_lt fits]⟩
    · rintro ⟨v, rfl⟩
      have := Nat.mod_lt v.toNat pos
      rw [BitVec.toNat_ofNat, Nat.mod_eq_of_lt (by omega)]
      exact this
  | absent => simp [Operand.fits]
  | malformed => simp [Operand.fits]
  | outOfRange => simp [Operand.fits]

/-- The operand of a well-formed instruction is one that its record holds, and conversely (R83, R87). -/
theorem Instr.wf_iff (i : Instr) : i.wf = true ↔ ∃ v, i.operand = recordOperand i.ordinal v := by
  rw [Instr.wf_eq]
  rcases widthClass_cases i.ordinal with w | w | w
  · simp [recordOperand, w]
  · simp [recordOperand, w, Operand.fits_iff]
  · simp [recordOperand, w, Operand.fits_iff]

/-- The value that a record's operand hands to the encoder again. -/
theorem bits?_recordOperand (k : OpOrdinal) (v : Word) :
    (recordOperand k v).bits? = some (BitVec.ofNat 32 (v.toNat % 2 ^ widthClass k)) := by
  unfold recordOperand
  split
  next w => rw [w, pow_zero, Nat.mod_one]; rfl
  next => rfl

/-- The instruction of a record is encoded as that record. -/
theorem encode_ofOrdinal_recordOperand (k : OpOrdinal) (v : Word) :
    encode (Instr.ofOrdinal k (recordOperand k v)) = some [(encodeRec k v).1, (encodeRec k v).2] := by
  have small : v.toNat % 2 ^ widthClass k < 2 ^ 32 := (Nat.mod_le _ _).trans_lt v.isLt
  have same : encodeRec k (BitVec.ofNat 32 (v.toNat % 2 ^ widthClass k)) = encodeRec k v := by
    refine Prod.ext rfl (BitVec.eq_of_toNat_eq ?_)
    rw [encodeRec_snd_toNat, encodeRec_snd_toNat, BitVec.toNat_ofNat, Nat.mod_eq_of_lt small, Nat.mod_mod]
  simp only [encode, Instr.operand_ofOrdinal, Instr.ordinal_ofOrdinal, bits?_recordOperand, same]

/-- Settles O3, by decoding an encoded record. -/
theorem decodeRecoversEncoded : Obligations.DecodeRecoversEncoded := by
  intro k v rest
  exact ⟨_, decode_encodeRec k v rest, Instr.ordinal_ofOrdinal k _, Instr.operand_ofOrdinal k _⟩

/-- Settles O4: a well-formed instruction is that of the record its operand is taken from. -/
theorem decodeEncodeWellFormed : Obligations.DecodeEncodeWellFormed := by
  intro i wf
  obtain ⟨v, operand⟩ := i.wf_iff.mp wf
  have record : Instr.ofOrdinal i.ordinal (recordOperand i.ordinal v) = i := operand ▸ i.ofOrdinal_ordinal
  refine ⟨_, record ▸ encode_ofOrdinal_recordOperand i.ordinal v, fun rest => ?_⟩
  simpa [record] using decode_encodeRec i.ordinal v rest

/-- Settles O5: what the decoder accepts is an encoded record, and its instruction has that record's operand. -/
theorem decodedRecordsEncodeBack : Obligations.DecodedRecordsEncodeBack := by
  intro bytes rest i h
  obtain ⟨k, v, rfl, rfl⟩ := exists_encodeRec_of_decode h
  exact ⟨(Instr.wf_iff _).mpr ⟨v, by simp⟩, _, _, rfl, encode_ofOrdinal_recordOperand k v⟩

/-! ### The records that Encode produces -/

/-- The byte pairs Encode produces: an ordinal, then a byte below `2^WIDTH_CLASS` (R88). -/
theorem exists_encodeRec_iff (b0 b1 : Byte) :
    (∃ k v, encodeRec k v = (b0, b1)) ↔ ∃ k : OpOrdinal, b0 = k.zeroExtend 8 ∧ b1.toNat < 2 ^ widthClass k := by
  constructor
  · rintro ⟨k, v, record⟩
    obtain ⟨rfl, rfl⟩ := Prod.ext_iff.mp record
    exact ⟨k, rfl, encodeRec_snd_lt k v⟩
  · rintro ⟨k, rfl, fits⟩
    exact ⟨k, b1.setWidth 32, encodeRec_setWidth fits⟩

/-- The bytes 0 of the ordinals of a width (R86). -/
def classBytes (w : Nat) : List Byte := (ordinals.filter fun k => widthClass k = w).map fun k => k.zeroExtend 8

theorem mem_classBytes_iff (w : Nat) (b : Byte) :
    b ∈ classBytes w ↔ ∃ k : OpOrdinal, b = k.zeroExtend 8 ∧ widthClass k = w := by
  have all : ∀ k : OpOrdinal, k ∈ ordinals := by decide
  simp only [classBytes, List.mem_map, List.mem_filter, all, true_and, decide_eq_true_eq]
  exact exists_congr fun k => by rw [and_comm, eq_comm]

theorem zeroBytes_eq : zeroBytes = classBytes 0 := by decide

theorem registerBytes_eq : registerBytes = classBytes 4 := by decide

theorem addressBytes_eq : addressBytes = classBytes 8 := by decide

/-- Settles O6: byte 0 gives the class, and byte 1 is refused exactly when it is not below `2^WIDTH_CLASS`. -/
theorem unproducedRecordsRefused : Obligations.UnproducedRecordsRefused := by
  intro b0 b1 rest
  rw [exists_encodeRec_iff, zeroBytes_eq, registerBytes_eq, addressBytes_eq]
  simp only [mem_classBytes_iff]
  refine ⟨fun beyond => decode_of_le beyond b1 rest, ?_, ?_, ?_, ?_⟩
  · rintro ⟨k, rfl, w⟩ nonzero
    have wide : 2 ^ widthClass k ≤ b1.toNat := by
      rw [w, pow_zero, Nat.one_le_iff_ne_zero]
      exact fun zero => nonzero (BitVec.eq_of_toNat_eq zero)
    rw [decode_ordinal, decodeOperand_of_le wide, if_pos w]
    rfl
  · rintro ⟨k, rfl, w⟩ wide
    rw [decode_ordinal, decodeOperand_of_le (by rwa [w]), if_neg (by simp [w])]
    rfl
  · rintro ⟨k, rfl, fits⟩
    rcases widthClass_cases k with w | w | w
    · rw [w, pow_zero, Nat.lt_one_iff] at fits
      exact .inl ⟨⟨k, rfl, w⟩, BitVec.eq_of_toNat_eq fits⟩
    · rw [w] at fits
      exact .inr (.inl ⟨⟨k, rfl, w⟩, fits⟩)
    · exact .inr (.inr ⟨k, rfl, w⟩)
  · rintro (⟨⟨k, rfl, w⟩, rfl⟩ | ⟨⟨k, rfl, w⟩, fits⟩ | ⟨k, rfl, w⟩)
    · exact ⟨k, rfl, by simp [w]⟩
    · exact ⟨k, rfl, by rwa [w]⟩
    · exact ⟨k, rfl, by rw [w]; exact b1.isLt⟩

/-- Settles O8: byte 1 by the width of the class. -/
theorem encodeByClass : Obligations.EncodeByClass := by
  have ordinal : ∀ k : OpOrdinal, (k.zeroExtend 8).toNat = k.toNat := by decide
  have zero : ∀ k ∈ ([0, 15] : List OpOrdinal), widthClass k = 0 := by decide
  have register : ∀ k ∈ ([1, 3, 4, 5, 6, 7] : List OpOrdinal), widthClass k = 4 := by decide
  have address : ∀ k ∈ ([2, 8, 9, 10, 11, 12, 13, 14] : List OpOrdinal), widthClass k = 8 := by decide
  intro k v
  refine ⟨ordinal k, fun hk => ?_, fun hk => ?_, fun hk => ?_⟩ <;> apply BitVec.eq_of_toNat_eq
  · exact encodeRec_snd_zero k v (zero k hk)
  · rw [encodeRec_snd_register k v (register k hk), low4, BitVec.toNat_ofNat]
    omega
  · rw [encodeRec_snd_address k v (address k hk), low8, BitVec.toNat_ofNat, Nat.mod_mod]

/-! ### Their number -/

/-- How many bytes 1 a byte 0 admits. -/
def secondBytes (b0 : Byte) : Nat := if b0.toNat < 16 then 2 ^ widthClass (b0.setWidth 4) else 0

theorem isRecord_eq (b0 b1 : Byte) : isRecord b0 b1 = decide (b1.toNat < secondBytes b0) := by
  rcases lt_or_ge b0.toNat 16 with ordinal | beyond
  · obtain ⟨k, rfl⟩ := exists_ordinal_of_lt ordinal
    have same : (k.zeroExtend 8).setWidth 4 = k := by revert k; decide
    rw [isRecord, decode_ordinal, secondBytes, if_pos ordinal, same]
    rcases lt_or_ge b1.toNat (2 ^ widthClass k) with fits | wide
    · simp [decodeOperand_of_lt fits, fits, Except.map]
    · simp [decodeOperand_of_le wide, wide, Except.map]
  · simp [isRecord, decode_of_le beyond, secondBytes, beyond.not_gt]

theorem secondBytes_le (b0 : Byte) : secondBytes b0 ≤ 256 := by
  revert b0; decide

theorem length_filter_range_lt (m n : Nat) : ((List.range n).filter fun x => decide (x < m)).length = min m n := by
  induction n with
  | zero => simp
  | succ n ih =>
    rw [List.range_succ, List.filter_append, List.length_append, ih]
    by_cases h : n < m
    · rw [List.filter_singleton, decide_eq_true h, cond_true, List.length_singleton]
      omega
    · rw [List.filter_singleton, decide_eq_false h, cond_false, List.length_nil]
      omega

theorem length_filter_isRecord (b0 : Byte) :
    ((List.range 256).filter fun b1 => isRecord b0 (BitVec.ofNat 8 b1)).length = secondBytes b0 := by
  have below : ∀ b1 ∈ List.range 256,
      isRecord b0 (BitVec.ofNat 8 b1) = decide (b1 < secondBytes b0) := by
    intro b1 hb
    rw [isRecord_eq, BitVec.toNat_ofNat, Nat.mod_eq_of_lt (List.mem_range.mp hb)]
  rw [List.filter_congr below, length_filter_range_lt, min_eq_left (secondBytes_le b0)]

/-- Settles O7: the bytes 1 of each ordinal are counted; above the ordinals there are none. -/
theorem producibleRecordCount : Obligations.ProducibleRecordCount := by
  unfold Obligations.ProducibleRecordCount
  simp only [length_filter_isRecord]
  have ordinals : List.range 256 = List.range 16 ++ (List.range 240).map (16 + ·) := @List.range_add 16 240
  have below : ((List.range 16).map fun b0 => secondBytes (BitVec.ofNat 8 b0)).sum = 2146 := by decide
  have above : (((List.range 240).map (16 + ·)).map fun b0 => secondBytes (BitVec.ofNat 8 b0)).sum = 0 := by
    rw [List.map_map]
    refine List.sum_eq_zero fun n hn => ?_
    obtain ⟨b0, hb, rfl⟩ := List.mem_map.mp hn
    have := List.mem_range.mp hb
    exact if_neg (by simp only [BitVec.toNat_ofNat]; omega)
  rw [ordinals, List.map_append, List.sum_append, below, above]

/-- Settles O1: closed values, computed. -/
theorem sourceExamplesEncode : Obligations.SourceExamplesEncode := by
  unfold Obligations.SourceExamplesEncode
  decide

/-- Settles O2: closed values, computed. -/
theorem tableWordsDecode : Obligations.TableWordsDecode := by
  unfold Obligations.TableWordsDecode
  decide

end Sys2Proof
end

section
/-! SUPPORT and PROOF. The operand parser against the grammar of literals (30_encoding.md R93, 42_operand_parser.md R165 to
R168): sign and base detection split a token as the grammar does, and the digit loop takes it when digits are all of it. -/

namespace Sys2Proof

open Claims

/-! ### The digit loop -/

/-- The loop stops at the first byte that is no digit. -/
theorem scanDigits_rest (base mag : Nat) (ovf : Bool) (n : Nat) (ds : List Byte) :
    (scanDigits base mag ovf n ds).rest = ds.dropWhile (isDigit base) := by
  fun_induction scanDigits base mag ovf n ds with
  | case1 => rfl
  | case2 mag ovf n c cs h => simp [isDigit, h]
  | case3 mag ovf n c cs d h lt ih => simp [isDigit, h, lt, ih]
  | case4 mag ovf n c cs d h ge => simp [isDigit, h, ge]

/-- The loop counts the digits before it stops. -/
theorem scanDigits_ndig (base mag : Nat) (ovf : Bool) (n : Nat) (ds : List Byte) :
    (scanDigits base mag ovf n ds).ndig = n + (ds.takeWhile (isDigit base)).length := by
  fun_induction scanDigits base mag ovf n ds with
  | case1 => rfl
  | case2 mag ovf n c cs h => simp [isDigit, h]
  | case3 mag ovf n c cs d h lt ih => simp [isDigit, h, lt, ih, Nat.add_assoc, Nat.add_comm 1]
  | case4 mag ovf n c cs d h ge => simp [isDigit, h, ge]

/-- A string of digits, not empty, in a base. -/
def AllDigits (base : Nat) (ds : List Byte) : Prop := ds ≠ [] ∧ ∀ c ∈ ds, isDigit base c = true

/-- The loop's result is malformed exactly when the bytes are not a string of digits (R167). -/
theorem scanResult_eq_malformed_iff (neg : Bool) (base : Nat) (ds : List Byte) :
    scanResult neg (scanDigits base 0 false 0 ds) = .malformed ↔ ¬ AllDigits base ds := by
  have whole : scanResult neg (scanDigits base 0 false 0 ds) = .malformed ↔
      (scanDigits base 0 false 0 ds).ndig = 0 ∨ (scanDigits base 0 false 0 ds).rest ≠ [] := by
    unfold scanResult
    split
    next h => simp [h]
    next h => split <;> simp [h]
  rw [whole, scanDigits_ndig, scanDigits_rest, AllDigits]
  cases ds with
  | nil => simp
  | cons d ds =>
    cases hd : isDigit base d with
    | true => simp [hd]
    | false => simp [hd]

theorem numeral_append_singleton (base : Nat) (ds : List Byte) (c : Byte) :
    numeral base (ds ++ [c]) = numeral base ds * base + (digitVal c).getD 0 := by
  simp [numeral]

/-- After the digits `ps`, on a string of digits, the loop goes on to the numeral's value. The sticky overflow bit says
whether that exceeds `M_MAX`, because a longer numeral is never smaller. -/
theorem scanDigits_of_digits {base : Nat} (pos : 0 < base) {ds : List Byte} (digits : ∀ c ∈ ds, isDigit base c = true)
    (ps : List Byte) : scanDigits base (numeral base ps) (decide (mMax < numeral base ps)) ps.length ds =
      ⟨numeral base (ps ++ ds), decide (mMax < numeral base (ps ++ ds)), (ps ++ ds).length, []⟩ := by
  induction ds generalizing ps with
  | nil => simp [scanDigits]
  | cons c cs ih =>
    obtain ⟨head, tail⟩ := List.forall_mem_cons.mp digits
    have next := ih tail (ps ++ [c])
    have grows : numeral base ps ≤ numeral base ps * base := Nat.le_mul_of_pos_right _ pos
    cases hc : digitVal c with
    | none => simp [isDigit, hc] at head
    | some d =>
      have lt : d < base := by simpa [isDigit, hc] using head
      have sticky : (decide (mMax < numeral base ps) || decide (numeral base ps * base + d > mMax)) =
          decide (mMax < numeral base ps * base + d) := by
        rw [← Bool.decide_or, decide_eq_decide]
        omega
      simpa [scanDigits, hc, lt, sticky, numeral_append_singleton] using next

/-- The loop on a string of digits, from its start (R165). -/
theorem scanDigits_eq_numeral {base : Nat} (pos : 0 < base) {ds : List Byte}
    (digits : ∀ c ∈ ds, isDigit base c = true) :
    scanDigits base 0 false 0 ds = ⟨numeral base ds, decide (mMax < numeral base ds), ds.length, []⟩ :=
  scanDigits_of_digits pos digits []

/-! ### Sign and base -/

theorem hasHexPrefix_iff (t : List Byte) : hasHexPrefix t = true ↔
    ∃ x d ds, t = 0x30 :: x :: d :: ds ∧ (x = 0x78 ∨ x = 0x58) ∧ isDigit 16 d = true := by
  rcases t with _ | ⟨z, _ | ⟨x, _ | ⟨d, ds⟩⟩⟩
  · simp [hasHexPrefix]
  · simp [hasHexPrefix]
  · simp [hasHexPrefix]
  · simp [hasHexPrefix, and_assoc]

/-- A hexadecimal literal: the digits begin after `0x`. -/
theorem detectBase_hex {x d : Byte} (hx : x = 0x78 ∨ x = 0x58) (hd : isDigit 16 d = true) (ds : List Byte) :
    detectBase (0x30 :: x :: d :: ds) = (16, d :: ds) := by
  exact if_pos ((hasHexPrefix_iff _).mpr ⟨x, d, ds, rfl, hx, hd⟩)

theorem detectBase_octal {ds : List Byte} (h : hasHexPrefix (0x30 :: ds) = false) :
    detectBase (0x30 :: ds) = (8, 0x30 :: ds) := by
  rw [detectBase, h]
  rfl

theorem detectBase_decimal {t : List Byte} (h : t.head? ≠ some 0x30) : detectBase t = (10, t) := by
  have noPrefix : hasHexPrefix t = false := by
    by_contra hex
    obtain ⟨x, d, ds, rfl, -⟩ := (hasHexPrefix_iff t).mp (by simpa using hex)
    exact h rfl
  simp only [detectBase, noPrefix, h, Bool.false_eq_true, if_false]

/-- Digits of base 8 after a `0` do not begin with `0x`: `x` is not one of them. -/
theorem not_hasHexPrefix_of_octal {ds : List Byte} (digits : ∀ c ∈ ds, isDigit 8 c = true) :
    hasHexPrefix (0x30 :: ds) = false := by
  by_contra hex
  obtain ⟨x, d, es, eq, hx, -⟩ := (hasHexPrefix_iff _).mp (by simpa using hex)
  obtain rfl := List.tail_eq_of_cons_eq eq
  have digit : isDigit 8 x = true := digits x (by simp)
  rcases hx with rfl | rfl
  · exact absurd digit (by decide)
  · exact absurd digit (by decide)

/-- The grammar's magnitudes are the strings of digits that base detection leaves, with the numeral's value (R93, R164). -/
theorem magnitude_iff (u : List Byte) (m : Nat) :
    Magnitude u m ↔ AllDigits (detectBase u).1 (detectBase u).2 ∧ m = numeral (detectBase u).1 (detectBase u).2 := by
  constructor
  · rintro (⟨x, d, ds, hx, digits⟩ | ⟨ds, digits⟩ | ⟨d, ds, hd, digits⟩)
    · rw [detectBase_hex hx (digits d (by simp))]
      exact ⟨⟨by simp, digits⟩, rfl⟩
    · rw [detectBase_octal (not_hasHexPrefix_of_octal digits)]
      exact ⟨⟨by simp, List.forall_mem_cons.mpr ⟨rfl, digits⟩⟩, rfl⟩
    · rw [detectBase_decimal (by simpa using hd)]
      exact ⟨⟨by simp, digits⟩, rfl⟩
  · rintro ⟨⟨nonempty, digits⟩, rfl⟩
    cases hex : hasHexPrefix u with
    | true =>
      obtain ⟨x, d, ds, rfl, hx, hd⟩ := (hasHexPrefix_iff u).mp hex
      rw [detectBase_hex hx hd] at digits ⊢
      exact .hex x d ds hx digits
    | false =>
      cases u with
      | nil => exact absurd rfl nonempty
      | cons c cs =>
        by_cases hc : c = 0x30
        · subst hc
          rw [detectBase_octal hex] at digits ⊢
          exact .octal cs (List.forall_mem_cons.mp digits).2
        · rw [detectBase_decimal (by simpa using hc)] at digits ⊢
          exact .decimal c cs hc digits

/-- A magnitude begins with a decimal digit, so with no sign. -/
theorem splitSign_of_magnitude {u : List Byte} {m : Nat} (h : Magnitude u m) : splitSign u = (false, u) := by
  cases h with
  | hex x d ds hx digits => rfl
  | octal ds digits => rfl
  | decimal d ds hd digits =>
    have digit : isDigit 10 d = true := digits d (by simp)
    have plus : d ≠ 0x2B := by rintro rfl; exact absurd digit (by decide)
    have minus : d ≠ 0x2D := by rintro rfl; exact absurd digit (by decide)
    rw [splitSign, if_neg plus, if_neg minus]

/-- The grammar's literals are an optional sign and a magnitude (R93, R165). -/
theorem literal_iff (t : List Byte) (neg : Bool) (m : Nat) :
    Literal t neg m ↔ (splitSign t).1 = neg ∧ Magnitude (splitSign t).2 m := by
  constructor
  · rintro (⟨u, m, h⟩ | ⟨u, m, h⟩ | ⟨u, m, h⟩)
    · rw [splitSign_of_magnitude h]
      exact ⟨rfl, h⟩
    · exact ⟨rfl, h⟩
    · exact ⟨rfl, h⟩
  · rintro ⟨rfl, h⟩
    cases t with
    | nil => exact .unsigned _ m h
    | cons c cs =>
      rw [splitSign] at h ⊢
      split_ifs at h ⊢ with plus minus
      · subst plus
        exact .plus cs m h
      · subst minus
        exact .minus cs m h
      · exact .unsigned _ m h

/-! ### The parser -/

theorem parseOperand_eq (t : List Byte) : parseOperand t =
    scanResult (splitSign t).1 (scanDigits (detectBase (splitSign t).2).1 0 false 0 (detectBase (splitSign t).2).2) := rfl

theorem detectBase_base_pos (u : List Byte) : 0 < (detectBase u).1 := by
  unfold detectBase
  split_ifs <;> simp

/-- The value of a literal, or that its magnitude is out of range (R165, R168). -/
theorem parseOperand_of_literal {t : List Byte} {neg : Bool} {m : Nat} (h : Literal t neg m) :
    parseOperand t = if mMax < m then .outOfRange else .value (signedValue neg m) := by
  obtain ⟨rfl, magnitude⟩ := (literal_iff t neg m).mp h
  obtain ⟨⟨nonempty, digits⟩, rfl⟩ := (magnitude_iff _ m).mp magnitude
  rw [parseOperand_eq, scanDigits_eq_numeral (detectBase_base_pos _) digits]
  simp [scanResult, nonempty]

/-- Settles O19: the tokens whose digits are all digits of the detected base are the literals of the grammar. -/
theorem malformedExactlyOffGrammar : Obligations.MalformedExactlyOffGrammar := by
  intro t
  rw [parseOperand_eq, scanResult_eq_malformed_iff]
  simp [literal_iff, magnitude_iff]

end Sys2Proof
end

section
/-! SUPPORT and PROOF. The canonical line of an instruction (30_encoding.md R96): its words are the mnemonic and the
operand's spelling, a decimal numeral is a literal of its number, and so the line reads back as the instruction. -/

namespace Sys2Proof

open Machine Claims

/-! ### The words of a line -/

/-- A byte that can stand in a token of a line: not in WS, no comment character, not 0x00. -/
def inWord (c : Byte) : Bool := !isSpace c && !isComment c && c != 0

/-- A string of bytes that can stand as a token. -/
def IsWord (w : List Byte) : Prop := w ≠ [] ∧ ∀ c ∈ w, inWord c = true

theorem inWord_iff (c : Byte) : inWord c = true ↔ isSpace c = false ∧ isComment c = false ∧ c ≠ 0 := by
  simp [inWord, and_assoc]

theorem not_isSpace_of_inWord {c : Byte} (h : inWord c = true) : isSpace c = false := ((inWord_iff c).mp h).1

theorem not_isComment_of_inWord {c : Byte} (h : inWord c = true) : isComment c = false := ((inWord_iff c).mp h).2.1

theorem IsWord.zero_notMem {w : List Byte} (word : IsWord w) : (0 : Byte) ∉ w :=
  fun zero => ((inWord_iff 0).mp (word.2 0 zero)).2.2 rfl

/-- Bytes of a word do not end the token being read. -/
theorem scanTokens_word_append {w : List Byte} (word : ∀ c ∈ w, inWord c = true) (a s : Nat) (cs : List Byte) :
    scanTokens a (some s) (w ++ cs) = scanTokens (a + w.length) (some s) cs := by
  induction w generalizing a with
  | nil => rfl
  | cons c w ih =>
    obtain ⟨first, later⟩ := List.forall_mem_cons.mp word
    simp [scanTokens, not_isSpace_of_inWord first, ih later, Nat.add_assoc, Nat.add_comm 1]

theorem strip_word_append {w : List Byte} (word : ∀ c ∈ w, inWord c = true) (line : List Byte) :
    strip (w ++ line) = w ++ strip line := by
  have kept : ∀ c ∈ w, (!isComment c) = true := fun c hc => by simp [not_isComment_of_inWord (word c hc)]
  simp only [strip_eq_takeWhile, List.takeWhile_append_of_pos kept]

/-- A word, a space and a line: the word's place, then those of the line moved to the right. -/
theorem tokens_word_space {w : List Byte} (word : IsWord w) (line : List Byte) :
    tokens (w ++ 0x20 :: line) = ⟨0, w.length⟩ :: (tokens line).map (Span.shift (w.length + 1)) := by
  obtain ⟨nonempty, bytes⟩ := word
  have space : strip (0x20 :: line) = 0x20 :: strip line := by simp [strip_eq_takeWhile, isComment]
  rw [tokens, strip_word_append bytes, space]
  cases w with
  | nil => exact absurd rfl nonempty
  | cons c w =>
    obtain ⟨first, later⟩ := List.forall_mem_cons.mp bytes
    have start (cs : List Byte) : scanTokens 0 none (c :: cs) = scanTokens 1 (some 0) cs := by
      simp [scanTokens, not_isSpace_of_inWord first]
    have stop (a : Nat) (cs : List Byte) :
        scanTokens a (some 0) (0x20 :: cs) = ⟨0, a⟩ :: scanTokens (a + 1) none cs := rfl
    have moved := scanTokens_shift (w.length + 2) 0 none (strip line)
    rw [Nat.zero_add, Option.map_none] at moved
    rw [List.cons_append, start, scanTokens_word_append later, stop, List.length_cons, Nat.add_comm 1, moved, tokens]

theorem words_word_space {w : List Byte} (word : IsWord w) (line : List Byte) :
    words (w ++ 0x20 :: line) = w :: words line := by
  have moved (p : Span) : slice (w ++ 0x20 :: line) (p.shift (w.length + 1)) = slice line p := by
    have eq := slice_append_shift (w ++ [0x20]) line p
    rwa [List.append_assoc, List.singleton_append, List.length_append, List.length_singleton] at eq
  have first : slice (w ++ 0x20 :: line) ⟨0, w.length⟩ = w := by simp [slice]
  simp only [words, tokens_word_space word, List.map_cons, List.map_map, Function.comp_def, moved, first]

theorem words_word {w : List Byte} (word : IsWord w) : words w = [w] := by
  have spaced := words_word_space word []
  rwa [words_append_space (ws := [0x20]) (by decide)] at spaced

/-! ### Decimal numerals -/

/-- The byte of a decimal digit. -/
def digitByte (d : Nat) : Byte := BitVec.ofNat 8 (0x30 + d)

theorem digitVal_digitByte {d : Nat} (h : d < 10) : digitVal (digitByte d) = some d := by
  interval_cases d <;> decide

theorem digitByte_ne_zero {d : Nat} (h : d < 10) (pos : d ≠ 0) : digitByte d ≠ 0x30 := by
  revert d; decide

theorem isDigit_digitByte {d : Nat} (h : d < 10) : isDigit 10 (digitByte d) = true := by
  simp [isDigit, digitVal_digitByte h, h]

theorem decimalDigits_eq {n fuel : Nat} (pos : n ≠ 0) (enough : n ≤ fuel) (acc : List Byte) :
    decimalDigits fuel n acc = ((Nat.digits 10 n).map digitByte).reverse ++ acc := by
  induction fuel generalizing n acc with
  | zero => omega
  | succ fuel ih =>
    rw [Nat.digits_def' (by decide) (Nat.pos_of_ne_zero pos)]
    simp only [decimalDigits]
    split
    next last => simp [last, digitByte]
    next more => simp [ih more (by omega), digitByte]

/-- The canonical numeral of a positive number is its digits, highest first. -/
theorem decimal_eq_digits {n : Nat} (pos : n ≠ 0) : decimal n = ((Nat.digits 10 n).map digitByte).reverse := by
  rw [decimal, decimalDigits_eq pos (Nat.le_succ n), List.append_nil]

theorem numeral_reverse_digits {ds : List Nat} (digits : ∀ d ∈ ds, d < 10) :
    numeral 10 (ds.map digitByte).reverse = Nat.ofDigits 10 ds := by
  induction ds with
  | nil => rfl
  | cons d ds ih =>
    obtain ⟨head, tail⟩ := List.forall_mem_cons.mp digits
    rw [List.map_cons, List.reverse_cons, numeral_append_singleton, ih tail, digitVal_digitByte head, Nat.ofDigits_cons,
      Option.getD_some]
    ring

/-- The canonical numeral of a positive number begins with no `0`. -/
theorem head?_decimal_ne {n : Nat} (pos : n ≠ 0) : (decimal n).head? ≠ some 0x30 := by
  have nonempty : Nat.digits 10 n ≠ [] := Nat.digits_ne_nil_iff_ne_zero.mpr pos
  have small := Nat.digits_lt_base (by decide) (List.getLast_mem nonempty)
  rw [decimal_eq_digits pos, List.head?_reverse, List.getLast?_map, List.getLast?_eq_some_getLast nonempty]
  simpa using digitByte_ne_zero small (Nat.getLast_digit_ne_zero 10 pos)

theorem allDigits_decimal (n : Nat) : AllDigits 10 (decimal n) := by
  rcases eq_or_ne n 0 with rfl | pos
  · unfold AllDigits
    decide
  · rw [decimal_eq_digits pos]
    refine ⟨by simpa using Nat.digits_ne_nil_iff_ne_zero.mpr pos, fun c hc => ?_⟩
    obtain ⟨d, hd, rfl⟩ := List.mem_map.mp (List.mem_reverse.mp hc)
    exact isDigit_digitByte (Nat.digits_lt_base (by decide) hd)

/-- The canonical numeral of a number is a literal of that number (R93, R96). -/
theorem magnitude_decimal (n : Nat) : Magnitude (decimal n) n := by
  rcases eq_or_ne n 0 with rfl | pos
  · exact .octal [] (by simp)
  · have value : numeral 10 (decimal n) = n := by
      rw [decimal_eq_digits pos, numeral_reverse_digits fun d hd => Nat.digits_lt_base (by decide) hd, Nat.ofDigits_digits]
    rw [magnitude_iff, detectBase_decimal (head?_decimal_ne pos)]
    exact ⟨allDigits_decimal n, value.symm⟩

theorem parseOperand_decimal (n : Nat) :
    parseOperand (decimal n) = if mMax < n then .outOfRange else .value (BitVec.ofNat 32 n) :=
  parseOperand_of_literal (.unsigned _ _ (magnitude_decimal n))

/-! ### The canonical line -/

theorem inWord_of_isDigit {c : Byte} (h : isDigit 10 c = true) : inWord c = true := by
  revert c; decide

theorem isWord_decimal (n : Nat) : IsWord (decimal n) := by
  obtain ⟨nonempty, digits⟩ := allDigits_decimal n
  exact ⟨nonempty, fun c hc => inWord_of_isDigit (digits c hc)⟩

theorem isWord_mnemonicName (k : OpOrdinal) : IsWord (mnemonicName k) := by
  have nonempty : ∀ k : OpOrdinal, mnemonicName k ≠ [] := by decide
  have bytes : ∀ k : OpOrdinal, (mnemonicName k).all inWord = true := by decide
  exact ⟨nonempty k, List.all_eq_true.mp (bytes k)⟩

/-- Each mnemonic names its ordinal (R143). -/
theorem lookupMnemonic_mnemonicName (k : OpOrdinal) : lookupMnemonic (mnemonicName k) = some k := by
  revert k; decide

/-- The operand part of a canonical line is empty, or a space and a word that parses as the operand. -/
theorem Operand.spell_cases (o : Operand) :
    (o = .absent ∧ o.spell = []) ∨ ∃ w, IsWord w ∧ o.spell = 0x20 :: w ∧ parseOperand w = o := by
  cases o with
  | absent => exact .inl ⟨rfl, rfl⟩
  | value v =>
    refine .inr ⟨decimal v.toNat, isWord_decimal _, rfl, ?_⟩
    have inRange : ¬ mMax < v.toNat := Nat.not_lt.mpr (Nat.le_of_lt_succ v.isLt)
    rw [parseOperand_decimal, if_neg inRange, BitVec.ofNat_toNat, BitVec.setWidth_eq]
  | malformed => exact .inr ⟨[0x2D], by unfold IsWord; decide, rfl, rfl⟩
  | outOfRange =>
    exact .inr ⟨decimal 4294967296, isWord_decimal _, rfl, (parseOperand_decimal _).trans (if_pos (by decide))⟩

/-- Settles O23: the words of the canonical line are the mnemonic, which names the ordinal, and a literal of the operand. -/
theorem canonicalLineReadsBack : Obligations.CanonicalLineReadsBack := by
  intro i
  have name := isWord_mnemonicName i.ordinal
  have found := lookupMnemonic_mnemonicName i.ordinal
  rw [decodeLine_eq_decodeWords, Instr.spell]
  rcases i.operand.spell_cases with ⟨absent, spell⟩ | ⟨w, word, spell, parse⟩
  · rw [spell, List.append_nil, words_word name]
    have whole : Instr.ofOrdinal i.ordinal .absent = i := absent ▸ i.ofOrdinal_ordinal
    simp [decodeWords, found, whole]
  · rw [spell, words_word_space name, words_word word]
    simp [decodeWords, found, parse]

/-- A canonical line holds no 0x00 (20_memory.md R52). -/
theorem zero_notMem_spell (i : Instr) : (0 : Byte) ∉ i.spell := by
  have name := (isWord_mnemonicName i.ordinal).zero_notMem
  rw [Instr.spell]
  rcases i.operand.spell_cases with ⟨-, spell⟩ | ⟨w, word, spell, -⟩
  · simpa [spell] using name
  · simpa [spell] using ⟨name, word.zero_notMem⟩

/-- Settles O30: the word's canonical line is ready, holds no 0x00 and reads back as the word's instruction. -/
theorem fetchWordRunsInstruction : Obligations.FetchWordRunsInstruction := by
  intro s w i decoded
  have placed : s.withFetchWord 16 w = s.withLine i.spell := by simp only [State.withFetchWord, decoded]
  have line : (s.withLine i.spell).core.lineBytes = some i.spell := CoreRegs.lineBytes_present s.core i.spell
  have compiles : step (s.withLine i.spell) = compileBytes i.spell (s.withLine i.spell) :=
    compileLine_of_line line (zero_notMem_spell i)
  rw [placed, compiles, compileBytes, canonicalLineReadsBack i]
  exact ⟨_, rfl, rfl, by simpa [CoreRegs.lineBytes] using line⟩

end Sys2Proof
end

section
/-! PROOF. The comment begins at the first byte of `COMMENT_CHARS`, and the bytes from there on belong to no token
(40_comment_stripper_tokenizer.md R120, R122). -/

namespace Sys2Proof

theorem isComment_iff (c : Byte) : isComment c = true ↔ c = 0x23 ∨ c = 0x3B := by
  simp [isComment]

theorem effLen_eq_findIdx (line : List Byte) : effLen line = line.findIdx isComment := by
  fun_induction effLen line with
  | case1 => rfl
  | case2 c cs hc => simp [List.findIdx_cons, hc]
  | case3 c cs hc ih => simp [List.findIdx_cons, hc, ih]

/-- Settles O13: EFF_LEN is the first index whose byte `isComment` accepts. -/
theorem commentCutAtFirst : Obligations.CommentCutAtFirst := by
  intro line
  refine ⟨effLen_le_length line, fun a c before found => ?_, fun inside => ?_⟩
  · obtain ⟨inLine, rfl⟩ := List.getElem?_eq_some_iff.mp found
    rw [effLen_eq_findIdx] at before
    simpa [isComment] using List.not_of_lt_findIdx before
  · rw [List.getElem?_eq_getElem inside, Option.some_inj, Option.some_inj, ← isComment_iff]
    simp only [effLen_eq_findIdx] at inside ⊢
    exact List.findIdx_getElem

/-- A comment character and what follows it are cut off, at that character or at one before it. -/
theorem strip_append_comment {c : Byte} (comment : isComment c = true) (line rest : List Byte) :
    strip (line ++ c :: rest) = strip line := by
  simp only [strip_eq_takeWhile, List.takeWhile_append]
  split
  next whole => simp [comment, List.IsPrefix.eq_of_length (List.takeWhile_prefix _) whole]
  next => rfl

/-- Bytes after a line that the Comment Stripper cuts off leave the bytes of all its tokens as they are. -/
theorem words_append_of_strip_eq {line rest : List Byte} (cut : strip (line ++ rest) = strip line) :
    words (line ++ rest) = words line := by
  have same : tokens (line ++ rest) = tokens line := by rw [tokens, tokens, cut]
  rw [words, words, same]
  refine List.map_congr_left fun p hp => slice_append_left ?_ rest
  exact (mem_tokens_bounds line p hp).2.trans (effLen_le_length line)

/-- Settles O15: the bytes of the tokens decide the result, and no token lies past a comment character. -/
theorem commentChangesNothing : Obligations.CommentChangesNothing := by
  intro line rest c comment
  have cut := strip_append_comment ((isComment_iff c).mpr comment) line rest
  exact lineResult_congr fun n _ => by rw [words_append_of_strip_eq cut]

end Sys2Proof
end

section
/-! SUPPORT and PROOF. The mnemonic decoder (41_mnemonic_decoder.md): folding, the table of names, the lookup of a token
in it, and the condition CompileLine raises when the lookup misses (R140 to R143, R147). -/

namespace Sys2Proof

open Machine Claims

/-! ### Folding -/

theorem fold_of_capital {c : Byte} (capital : 0x41 ≤ c.toNat ∧ c.toNat ≤ 0x5A) : fold c = c + 0x20 := if_pos capital

theorem fold_of_not_capital {c : Byte} (other : ¬ (0x41 ≤ c.toNat ∧ c.toNat ≤ 0x5A)) : fold c = c := if_neg other

/-- Settles O11: a capital is far enough below 256 for the sum not to wrap. -/
theorem foldCapitalsOnly : Obligations.FoldCapitalsOnly := by
  intro c
  refine ⟨fun capital => ?_, fun other => fold_of_not_capital (by omega)⟩
  have noWrap : c.toNat + 0x20 < 2 ^ 8 := by omega
  rw [fold_of_capital capital, BitVec.toNat_add_of_lt noWrap]
  rfl

/-! ### The tables and the lookup -/

/-- Settles O10: closed values, computed. -/
theorem widthClassTable : Obligations.WidthClassTable := by
  unfold Obligations.WidthClassTable
  decide

theorem map_fold_of_lookupMnemonic {t : List Byte} {k : OpOrdinal} (h : lookupMnemonic t = some k) :
    t.map fold = mnemonicName k := by
  have found := List.find?_some h
  exact of_decide_eq_true found

/-- The lookup sees a token through its folded bytes only. -/
theorem lookupMnemonic_congr {t u : List Byte} (h : t.map fold = u.map fold) : lookupMnemonic t = lookupMnemonic u := by
  rw [lookupMnemonic, lookupMnemonic, h]

/-- A token that folds to a name is looked up as that name is, and a name folds to itself. -/
theorem lookupMnemonic_eq_some_iff (t : List Byte) (k : OpOrdinal) :
    lookupMnemonic t = some k ↔ t.map fold = mnemonicName k := by
  refine ⟨map_fold_of_lookupMnemonic, fun h => ?_⟩
  have named := lookupMnemonic_mnemonicName k
  exact (lookupMnemonic_congr (h.trans (map_fold_of_lookupMnemonic named).symm)).trans named

theorem lookupMnemonic_eq_none_iff (t : List Byte) :
    lookupMnemonic t = none ↔ ∀ k, t.map fold ≠ mnemonicName k := by
  simp only [Option.eq_none_iff_forall_ne_some, ne_eq, lookupMnemonic_eq_some_iff]

/-- Settles O12: the tables are computed, and the lookup finds the one ordinal whose name the folded token is. -/
theorem mnemonicLookupExact : Obligations.MnemonicLookupExact :=
  ⟨by decide, by decide, lookupMnemonic_eq_some_iff⟩

/-! ### A first token that is no name -/

/-- A miss on the first token decides the line, whatever the other tokens are (R265). -/
theorem decodeLine_of_miss {line : List Byte} {p : Span} {more : List Span} (first : tokens line = p :: more)
    (miss : lookupMnemonic (slice line p) = none) : decodeLine line = .unknown := by
  rw [decodeLine_eq_decodeWords]
  simp [words, first, decodeWords, miss]

/-- CORE's step on a line that is ready answers with what CompileLine leaves. -/
theorem step_of_lineReady {s : State} {line : List Byte} (ready : LineReady s line) :
    step s = .next (compiled line s) := by
  obtain ⟨turn, present, nonzero⟩ := ready
  have compiles : step s = compileLine s := by simp only [step, turn]
  rw [compiles, compileLine_of_line present nonzero, compileBytes_eq_compiled]

theorem compiled_of_unknown {line : List Byte} (unknown : decodeLine line = .unknown) (s : State) :
    compiled line s = raise .unknownMnemonic false { s with core := s.core.scanned line } := by
  simp only [compiled, unknown]

/-- Settles O33: after the scan, CompileLine writes nothing but the STATUS that names the condition and token 0. -/
theorem unknownMnemonicRaised : Obligations.UnknownMnemonicRaised := by
  intro s line p more ready first noName
  have unknown := decodeLine_of_miss first ((lookupMnemonic_eq_none_iff _).mpr noName)
  refine ⟨_, step_of_lineReady ready, ?_⟩
  rw [compiled_of_unknown unknown]
  simp [first, Status.failure, absentOperand]

end Sys2Proof
end

section
/-! SUPPORT and PROOF. The operand parser's digits and values (42_operand_parser.md R163 to R173): the digit values of all
bytes, the value of a literal or its refusal as out of range, and the 32-bit accumulator against the unbounded one. -/

namespace Sys2Proof

open Claims

/-! ### Digits -/

theorem digitVal_of_decimal {c : Byte} (h : 0x30 ≤ c.toNat ∧ c.toNat ≤ 0x39) : digitVal c = some (c.toNat - 0x30) :=
  if_pos h

theorem digitVal_of_small {c : Byte} (h : 0x61 ≤ c.toNat ∧ c.toNat ≤ 0x66) :
    digitVal c = some (c.toNat - 0x61 + 10) := by
  rw [digitVal, if_neg (by omega), if_pos h]

theorem digitVal_of_capital {c : Byte} (h : 0x41 ≤ c.toNat ∧ c.toNat ≤ 0x46) :
    digitVal c = some (c.toNat - 0x41 + 10) := by
  rw [digitVal, if_neg (by omega), if_neg (by omega), if_pos h]

theorem digitVal_of_other {c : Byte} (decimal : ¬ (0x30 ≤ c.toNat ∧ c.toNat ≤ 0x39))
    (small : ¬ (0x61 ≤ c.toNat ∧ c.toNat ≤ 0x66)) (capital : ¬ (0x41 ≤ c.toNat ∧ c.toNat ≤ 0x46)) :
    digitVal c = none := by
  rw [digitVal, if_neg decimal, if_neg small, if_neg capital]

theorem isDigit_iff (base : Nat) (c : Byte) : isDigit base c = true ↔ ∃ d, digitVal c = some d ∧ d < base := by
  cases h : digitVal c with
  | none => simp [isDigit, h]
  | some d => simp [isDigit, h]

/-- Settles O18: one range of bytes for each branch of `DigitVal`. -/
theorem digitValues : Obligations.DigitValues := fun c =>
  ⟨digitVal_of_decimal, digitVal_of_small, digitVal_of_capital,
    fun h => digitVal_of_other (by omega) (by omega) (by omega), fun base => isDigit_iff base c⟩

/-! ### Values -/

/-- Settles O20: a token that is no literal is malformed, and a literal is out of range by its magnitude alone. -/
theorem outOfRangeExactlyAboveMax : Obligations.OutOfRangeExactlyAboveMax := by
  intro t
  constructor
  · intro out
    have isLiteral : ∃ neg m, Literal t neg m := by
      by_contra off
      have malformed := (malformedExactlyOffGrammar t).mpr off
      simp [malformed] at out
    obtain ⟨neg, m, literal⟩ := isLiteral
    refine ⟨neg, m, literal, ?_⟩
    by_contra inRange
    have value := (parseOperand_of_literal literal).trans (if_neg inRange)
    simp [value] at out
  · rintro ⟨neg, m, literal, above⟩
    exact (parseOperand_of_literal literal).trans (if_pos above)

theorem toNat_signedValue {m : Nat} (inRange : m ≤ mMax) (neg : Bool) :
    (signedValue neg m).toNat = if neg then (2 ^ 32 - m) % 2 ^ 32 else m := by
  cases neg with
  | true => exact BitVec.toNat_ofNat ..
  | false => exact (BitVec.toNat_ofNat ..).trans (Nat.mod_eq_of_lt (Nat.lt_succ_of_le inRange))

/-- Settles O21: a magnitude up to `M_MAX` fits the 32 bits that hold it or its two's complement. -/
theorem literalValues : Obligations.LiteralValues := by
  intro t neg m literal inRange
  exact ⟨signedValue neg m, (parseOperand_of_literal literal).trans (if_neg (Nat.not_lt.mpr inRange)),
    toNat_signedValue inRange neg⟩

/-! ### The 32-bit accumulator -/

/-- Two scans that differ at most in the magnitude, and in that only when it has overflowed. -/
structure DigitScan.Agrees (r u : DigitScan) : Prop where
  ovf  : r.ovf = u.ovf
  ndig : r.ndig = u.ndig
  rest : r.rest = u.rest
  mag  : u.ovf = false → r.mag = u.mag

/-- The result of a scan that has overflowed does not show the magnitude. -/
theorem DigitScan.Agrees.scanResult_eq {r u : DigitScan} (h : r.Agrees u) (neg : Bool) :
    scanResult neg r = scanResult neg u := by
  obtain ⟨ovf, ndig, rest, mag⟩ := h
  rw [scanResult, scanResult, ovf, ndig, rest]
  cases hu : u.ovf with
  | true => rfl
  | false => rw [mag hu]

/-- One turn of the loop does not wrap the accumulator while the magnitude stays up to `M_MAX`. -/
theorem toNat_accumulate {w : Word} {base d : Nat} (inRange : w.toNat * base + d ≤ mMax) :
    (w * BitVec.ofNat 32 base + BitVec.ofNat 32 d).toNat = w.toNat * base + d := by
  have fits : w.toNat * base + d < 2 ^ 32 := Nat.lt_succ_of_le inRange
  rw [← Nat.mod_eq_of_lt fits]
  simp

/-- From states that agree, the two loops end in states that agree: they set the sticky bit at the same digit, and no
accumulator has wrapped before it. -/
theorem scanDigitsWrapped_agrees (base : Nat) {w : Word} {mag : Nat} {ovf : Bool} (same : ovf = false → w.toNat = mag)
    (n : Nat) (ds : List Byte) : (scanDigitsWrapped base w ovf n ds).Agrees (scanDigits base mag ovf n ds) := by
  induction ds generalizing w mag ovf n with
  | nil => exact ⟨rfl, rfl, rfl, same⟩
  | cons c cs ih =>
    rw [scanDigitsWrapped, scanDigits]
    cases digitVal c with
    | none => exact ⟨rfl, rfl, rfl, same⟩
    | some d =>
      by_cases digit : d < base
      · simp only [digit, if_true]
        cases ovf with
        | true => exact ih (by simp) (n + 1)
        | false =>
          obtain rfl := same rfl
          refine ih (fun noOverflow => toNat_accumulate ?_) (n + 1)
          simpa [mMax] using noOverflow
      · simp only [digit, if_false]
        exact ⟨rfl, rfl, rfl, same⟩

/-- Settles O22: the two loops begin in states that agree. -/
theorem wrappedAccumulatorAgrees : Obligations.WrappedAccumulatorAgrees := by
  intro t
  have agree := scanDigitsWrapped_agrees (detectBase (splitSign t).2).1 (w := 0) (mag := 0) (ovf := false)
    (fun _ => rfl) 0 (detectBase (splitSign t).2).2
  exact agree.scanResult_eq (splitSign t).1

end Sys2Proof
end

section
/-! PROOF. The instruction encoder (43_instruction_encoder.md): which operand values share a record (R199), and the record
CompileLine hands over for an instruction (R190, R267), which the value given to Encode decides, `Operand.bits?`. -/

namespace Sys2Proof

open Machine

/-- Settles O9: byte 0 is the ordinal alone, and byte 1 is the operand modulo `2^WIDTH_CLASS`. -/
theorem sameRecordIffCongruent : Obligations.SameRecordIffCongruent := by
  intro k u v
  rw [← encodeRec_snd_toNat, ← encodeRec_snd_toNat]
  constructor
  · intro same
    rw [same]
  · intro byte1
    exact Prod.ext rfl (BitVec.eq_of_toNat_eq byte1)

theorem encode_of_bits? {i : Instr} {v : Word} (h : i.operand.bits? = some v) :
    encode i = some [(encodeRec i.ordinal v).1, (encodeRec i.ordinal v).2] := by
  rw [encode, h]

theorem encode_of_bits?_none {i : Instr} (h : i.operand.bits? = none) : encode i = none := by
  rw [encode, h]

/-- An operand with a value for Encode ends the line with the record of that value. -/
theorem assembleInstr_of_bits? {o : Operand} {v : Word} (h : o.bits? = some v) (k : OpOrdinal) (s : State) :
    (assembleInstr k o s).core.status.emit = true ∧ (assembleInstr k o s).core.rec0 = (encodeRec k v).1 ∧
      (assembleInstr k o s).core.rec1 = (encodeRec k v).2 := by
  cases o with
  | absent => cases h; exact ⟨rfl, rfl, rfl⟩
  | value u => cases h; exact ⟨rfl, rfl, rfl⟩
  | malformed => cases h
  | outOfRange => cases h

/-- An operand that the parser turned away ends the line in failure, with no record (R267). -/
theorem assembleInstr_of_bits?_none {o : Operand} (h : o.bits? = none) (k : OpOrdinal) (s : State) :
    (assembleInstr k o s).core.status.emit = false ∧ (assembleInstr k o s).core.status.ok = false := by
  cases o with
  | absent => cases h
  | value u => cases h
  | malformed => exact ⟨rfl, rfl⟩
  | outOfRange => exact ⟨rfl, rfl⟩

/-- Settles O28: the value that the operand gives to Encode, or that it gives none, decides `encode` and CompileLine's end
alike. -/
theorem recordIsEncoding : Obligations.RecordIsEncoding := by
  intro i s
  refine ⟨_, exec_eq_assembleInstr i s, ?_⟩
  cases h : i.operand.bits? with
  | some v =>
    obtain ⟨emit, rec0, rec1⟩ := assembleInstr_of_bits? h i.ordinal s
    simp [encode_of_bits? h, emit, rec0, rec1]
  | none =>
    obtain ⟨emit, ok⟩ := assembleInstr_of_bits?_none h i.ordinal s
    simp [encode_of_bits?_none h, emit, ok]

end Sys2Proof
end

section
/-! PROOF. The two zero-operand instructions (44_zero_operand_instructions.md), from the rule that the instruction of any
ordinal follows (R190 to R194): byte 0 is the ordinal and byte 1 the operand modulo `2^WIDTH_CLASS`. -/

namespace Sys2Proof

open Machine Claims

theorem exec_ofOrdinal (k : OpOrdinal) (o : Operand) (s : State) :
    exec (Instr.ofOrdinal k o) s = .next (assembleInstr k o s) := by
  rw [exec_eq_assembleInstr, Instr.ordinal_ofOrdinal, Instr.operand_ofOrdinal]

/-- Byte 1 of a line without an operand is 0x00 in every class (R264). -/
theorem encodeRec_snd_absentOperand (k : OpOrdinal) : (encodeRec k absentOperand).2 = 0x00 := by
  apply BitVec.eq_of_toNat_eq
  rw [encodeRec_snd_toNat]
  exact Nat.zero_mod _

/-- The instruction of an ordinal follows the rule whose byte 1 is the operand modulo `2^WIDTH_CLASS`. -/
theorem instructionRule_ofOrdinal (k : OpOrdinal) {b1 : Word → Byte}
    (byte1 : ∀ v, (b1 v).toNat = v.toNat % 2 ^ widthClass k) :
    InstructionRule (Instr.ofOrdinal k) (k.zeroExtend 8) b1 := by
  intro s
  refine ⟨fun v => ?value, ?absent, exec_ofOrdinal k .malformed s, exec_ofOrdinal k .outOfRange s⟩
  case value =>
    have rec1 : (encodeRec k v).2 = b1 v := BitVec.eq_of_toNat_eq (by rw [encodeRec_snd_toNat, byte1])
    exact ⟨_, exec_ofOrdinal k (.value v) s, rfl, rec1, rfl, rfl, rfl, rfl, rfl, rfl, rfl, rfl⟩
  case absent =>
    exact ⟨_, exec_ofOrdinal k .absent s, rfl, encodeRec_snd_absentOperand k, rfl, rfl, rfl, rfl, rfl, rfl, rfl, rfl⟩

/-- Settles O24: the width of both ordinals is 0, and a value modulo `2^0` is 0. -/
theorem zeroOperandInstructions : Obligations.ZeroOperandInstructions :=
  ⟨instructionRule_ofOrdinal 0 fun v => (Nat.mod_one v.toNat).symm,
    instructionRule_ofOrdinal 15 fun v => (Nat.mod_one v.toNat).symm⟩

end Sys2Proof
end

section
/-! PROOF. The six register-class instructions (45_register_class_instructions.md), from the rule that the instruction of
any ordinal follows: the class is the one whose byte 1 is the operand modulo 16 (R193). -/

namespace Sys2Proof

open Machine Claims

theorem toNat_low4 (v : Word) : (low4 v).toNat = v.toNat % 16 := by
  rw [low4, BitVec.toNat_ofNat]
  omega

/-- Every ordinal of width 4 follows the rule whose byte 1 is the operand modulo 16. -/
theorem instructionRule_register {k : OpOrdinal} (width : widthClass k = 4) :
    InstructionRule (Instr.ofOrdinal k) (k.zeroExtend 8) low4 :=
  instructionRule_ofOrdinal k fun v => width ▸ toNat_low4 v

/-- Settles O25: the six ordinals have width 4. -/
theorem registerClassInstructions : Obligations.RegisterClassInstructions :=
  ⟨instructionRule_register (k := 1) rfl, instructionRule_register (k := 3) rfl,
    instructionRule_register (k := 4) rfl, instructionRule_register (k := 5) rfl,
    instructionRule_register (k := 6) rfl, instructionRule_register (k := 7) rfl⟩

end Sys2Proof
end

section
/-! PROOF. The eight address-class instructions (46_address_class_instructions.md), from the rule that the instruction of
any ordinal follows: the class is the one whose byte 1 is the operand modulo 256 (R194). -/

namespace Sys2Proof

open Machine Claims

theorem toNat_low8 (v : Word) : (low8 v).toNat = v.toNat % 256 := by
  rw [low8, BitVec.toNat_ofNat]
  exact Nat.mod_mod v.toNat 256

/-- Every ordinal of width 8 follows the rule whose byte 1 is the operand modulo 256. -/
theorem instructionRule_address {k : OpOrdinal} (width : widthClass k = 8) :
    InstructionRule (Instr.ofOrdinal k) (k.zeroExtend 8) low8 :=
  instructionRule_ofOrdinal k fun v => by rw [width]; exact toNat_low8 v

/-- Settles O26: the eight ordinals have width 8. -/
theorem addressClassInstructions : Obligations.AddressClassInstructions :=
  ⟨instructionRule_address (k := 2) rfl, instructionRule_address (k := 8) rfl,
    instructionRule_address (k := 9) rfl, instructionRule_address (k := 10) rfl,
    instructionRule_address (k := 11) rfl, instructionRule_address (k := 12) rfl,
    instructionRule_address (k := 13) rfl, instructionRule_address (k := 14) rfl⟩

end Sys2Proof
end

section
/-! SUPPORT and PROOF. The Line Compiler (47_line_compiler.md): the tokens after the second do not count (R266), CORE's step
runs the instruction of its line (R260), and its result is the line's row of the table of results (R268). -/

namespace Sys2Proof

open Machine Claims

/-! ### What follows a line -/

/-- Bytes after a line that begin with whitespace are cut off with its comment, or the line has none and keeps them as far
as their own comment. -/
theorem strip_append_space_cons {w : Byte} (space : isSpace w = true) (line rest : List Byte) :
    strip (line ++ w :: rest) = strip line ∨
      strip line = line ∧ strip (line ++ w :: rest) = line ++ w :: strip rest := by
  have kept : strip (w :: rest) = w :: strip rest := strip_space_append (ws := [w]) (by simpa using space) rest
  simp only [strip_eq_takeWhile] at kept ⊢
  rw [List.takeWhile_append, kept]
  split
  next whole => exact .inr ⟨List.IsPrefix.eq_of_length (List.takeWhile_prefix _) whole, rfl⟩
  next => exact .inl rfl

/-- A byte of WS ends the token being read, as the end of the line does, and the scan goes on after it. -/
theorem scanTokens_append_space_cons {w : Byte} (space : isSpace w = true) (a : Nat) (open? : Option Nat)
    (cs more : List Byte) : scanTokens a open? (cs ++ w :: more) =
      scanTokens a open? cs ++ scanTokens (a + cs.length + 1) none more := by
  fun_induction scanTokens a open? cs with
  | case1 a => simp [scanTokens, space]
  | case2 a s => simp [scanTokens, space]
  | case3 a c cs hc ih => simpa [scanTokens, hc, Nat.add_comm, Nat.add_left_comm, Nat.add_assoc] using ih
  | case4 a c cs s hc ih => simpa [scanTokens, hc, Nat.add_comm, Nat.add_left_comm, Nat.add_assoc] using ih
  | case5 a c cs hc ih => simpa [scanTokens, hc, Nat.add_comm, Nat.add_left_comm, Nat.add_assoc] using ih
  | case6 a c cs s hc ih => simpa [scanTokens, hc, Nat.add_comm, Nat.add_left_comm, Nat.add_assoc] using ih

/-- Bytes after a line that begin with whitespace leave its tokens where they are and add others behind them at most. -/
theorem tokens_prefix_append_space_cons {w : Byte} (space : isSpace w = true) (line rest : List Byte) :
    tokens line <+: tokens (line ++ w :: rest) := by
  unfold tokens
  rcases strip_append_space_cons space line rest with cut | ⟨whole, kept⟩
  · rw [cut]
  · rw [kept, whole, scanTokens_append_space_cons space]
    exact List.prefix_append _ _

/-- The tokens of a line have the same bytes in any longer line. -/
theorem map_slice_append (line rest : List Byte) : (tokens line).map (slice (line ++ rest)) = words line :=
  List.map_congr_left fun p hp =>
    slice_append_left ((mem_tokens_bounds line p hp).2.trans (effLen_le_length line)) rest

theorem words_prefix_append_space_cons {w : Byte} (space : isSpace w = true) (line rest : List Byte) :
    words line <+: words (line ++ w :: rest) := by
  have longer := (tokens_prefix_append_space_cons space line rest).map (slice (line ++ w :: rest))
  rwa [map_slice_append] at longer

/-- Settles O16: the bytes of the first two tokens decide the result, and they are the first two of the longer line. -/
theorem laterTokensIgnored : Obligations.LaterTokensIgnored := by
  intro line rest w two space
  obtain ⟨more, longer⟩ := words_prefix_append_space_cons space line rest
  refine lineResult_congr fun n hn => ?_
  rw [← longer, List.getElem?_append_left]
  rw [words, List.length_map]
  omega

/-! ### CORE's step -/

theorem compiled_of_instr {line : List Byte} {i : Instr} (reads : decodeLine line = .instr i) (s : State) :
    compiled line s =
      assembleInstr i.ordinal i.operand { s with core := (s.core.scanned line).putHit i.ordinal } := by
  simp only [compiled, reads]

theorem compiled_of_blank {line : List Byte} (blank : tokens line = []) (s : State) :
    compiled line s = finishBlank { s with core := s.core.scanned line } := by
  simp only [compiled, (decodeLine_eq_blank line).mpr blank]

/-- `Tokenize` writes NTOK and a token register for each of the first two tokens, nothing else (R123). -/
theorem putTokens_eq (r : CoreRegs) (ps : List Span) : r.putTokens ps =
    { r with
      ntok := BitVec.ofNat 2 (min 2 ps.length), tok0 := ps[0]?.getD r.tok0, tok1 := ps[1]?.getD r.tok1 } := by
  rcases ps with _ | ⟨p, _ | ⟨q, ps⟩⟩
  · rfl
  · rfl
  · simp [CoreRegs.putTokens]

/-- Settles O29: CompileLine runs the instruction on the registers as the scan and the lookup leave them. -/
theorem stepRunsDecodedInstruction : Obligations.StepRunsDecodedInstruction := by
  intro s line i ready reads
  rw [step_of_lineReady ready, compiled_of_instr reads, exec_eq_assembleInstr, CoreRegs.scanned, putTokens_eq]
  rfl

/-- A failed line's STATUS names a condition. -/
theorem ne_none_of_compiled_failure {line : List Byte} {s : State} {c : ErrCode} {second : Bool} {p : Span}
    (status : (compiled line s).core.status = Status.failure c second p) : c ≠ .none := by
  rcases compiled_status_cases line with ⟨emit, success⟩ | ⟨c', second', p', condition, -, failure⟩
  · simpa using congrArg Status.ok (status.symm.trans (success s))
  · have same : c = c' := congrArg Status.err (status.symm.trans (failure s))
    rwa [same]

/-- Settles O31: CompileLine leaves in STATUS and in the record registers what the table of results says. -/
theorem stepGivesLineResult : Obligations.StepGivesLineResult := by
  intro s line ready
  refine ⟨_, step_of_lineReady ready, compiled_turn line s, ?_⟩
  rcases lineResult_cases line with ⟨result, status⟩ | ⟨rec, result, left⟩ | ⟨c, second, p, result, -, status⟩
  · simp [result, status]
  · obtain ⟨status, rec0, rec1⟩ := left s
    simp [result, status, rec0, rec1]
  · simp [result, status, ne_none_of_compiled_failure (status s)]

/-- Settles O32: a blank line is a success without a record, and the HOST does nothing on it. -/
theorem blankLineEmitsNothing : Obligations.BlankLineEmitsNothing := by
  intro s line ready blank
  have compiles := step_of_lineReady ready
  rw [compiled_of_blank blank] at compiles
  exact ⟨_, _, compiles, rfl, rfl, rfl, (step_of_act rfl).trans (act_of_ok rfl), by simp, rfl⟩

end Sys2Proof
end

section
/-! SUPPORT and PROOF. The lines of a text (48_program_driver.md R291, R292): how a piece is cut, that the pieces make up the
text, and how much output they have (R296). -/

namespace Sys2Proof.Machine

/-! ### The next piece -/

theorem takePiece_length_pos (c : Byte) (cs : List Byte) : 1 ≤ (takePiece Config.lineMax (c :: cs)).1.length := by
  have whole := congrArg List.length (takePiece_append_rest Config.lineMax (c :: cs))
  have shorter := takePiece_rest_length_lt c cs
  rw [List.length_append] at whole
  omega

/-- A terminator ends the piece. -/
theorem terminator_notMem_dropLast_takePiece (room : Nat) (text : List Byte) :
    (0x0A : Byte) ∉ (takePiece room text).1.dropLast := by
  fun_induction takePiece room text with
  | case1 text => simp
  | case2 room => simp
  | case3 room cs => simp
  | case4 room c cs hc ih =>
    cases piece : (takePiece room cs).1 with
    | nil => simp
    | cons d ds =>
      rw [List.dropLast_cons_cons, List.mem_cons, not_or, ← piece]
      exact ⟨Ne.symm hc, ih⟩

/-- Nothing but a terminator, the room or the end of the text ends a piece. -/
theorem takePiece_ends (room : Nat) (text : List Byte) :
    (takePiece room text).1.getLast? = some 0x0A ∨ (takePiece room text).1.length = room ∨
      (takePiece room text).2 = [] := by
  fun_induction takePiece room text with
  | case1 text => simp
  | case2 room => simp
  | case3 room cs => simp
  | case4 room c cs hc ih =>
    rcases ih with last | full | empty
    · exact .inl (by simp [List.getLast?_cons, last])
    · exact .inr (.inl (by simpa using full))
    · exact .inr (.inr empty)

/-! ### All pieces -/

/-- The pieces put together are the text. -/
theorem flatten_linePieces (text : List Byte) : (linePieces text).flatten = text := by
  induction len : text.length using Nat.strong_induction_on generalizing text with
  | _ n ih =>
    cases text with
    | nil => rfl
    | cons c cs =>
      have rest := ih _ (len ▸ takePiece_rest_length_lt c cs) _ rfl
      rw [linePieces_cons, List.flatten_cons, rest, takePiece_append_rest]

/-- Every piece of a text is the next piece of some text with bytes left. -/
theorem exists_takePiece_of_mem_cutPieces {fuel : Nat} {text p : List Byte} (h : p ∈ cutPieces fuel text) :
    ∃ c cs, p = (takePiece Config.lineMax (c :: cs)).1 := by
  fun_induction cutPieces fuel text with
  | case1 text => simp at h
  | case2 fuel => simp at h
  | case3 fuel c cs ih =>
    rcases List.mem_cons.mp h with rfl | later
    · exact ⟨c, cs, rfl⟩
    · exact ih later

end Sys2Proof.Machine

namespace Sys2Proof

open Machine

/-- Settles O41: the four ways `takePiece` can go on leave each of these facts as it is. -/
theorem pieceCut : Obligations.PieceCut := by
  intro c cs p r cut
  obtain rfl : (takePiece Config.lineMax (c :: cs)).1 = p := congrArg Prod.fst cut
  obtain rfl : (takePiece Config.lineMax (c :: cs)).2 = r := congrArg Prod.snd cut
  exact ⟨takePiece_append_rest _ _, takePiece_length_pos c cs, takePiece_length_le _ _,
    terminator_notMem_dropLast_takePiece _ _, takePiece_ends _ _⟩

/-- Settles O59: the pieces are cut one after the other, each by `takePiece`. -/
theorem piecesMakeUpText : Obligations.PiecesMakeUpText := by
  intro text
  refine ⟨flatten_linePieces text, fun p hp => ?_⟩
  obtain ⟨c, cs, rfl⟩ := exists_takePiece_of_mem_cutPieces hp
  exact ⟨takePiece_length_pos c cs, takePiece_length_le _ _⟩

/-- Settles O58: each line adds what its result says, by induction on the lines. -/
theorem assembleCounts : Obligations.AssembleCounts := by
  intro n lines
  induction lines generalizing n with
  | nil => exact ⟨rfl, rfl⟩
  | cons line rest ih =>
    obtain ⟨out, diag⟩ := ih (n + 1)
    cases result : lineResult line with
    | nothing => simp [assembleLines, result, out, diag]
    | record rec => simp [assembleLines, result, out, diag, Nat.mul_succ]
    | failed c token => simp [assembleLines, result, out, diag]

end Sys2Proof
end

section
/-! SUPPORT and PROOF. The Program Driver's own steps (48_program_driver.md): the start-up and its fatal errors (R298, R299,
R301), a delivery (R290, R293), the end of the run (R300, R302), and what the user is told (R295, R328). -/

namespace Sys2Proof.Machine

/-! ### Start-up -/

/-- The option is no path. -/
theorem ne_optionO_of_isPath {w : List Byte} (path : isPath w = true) : w ≠ optionO := by
  rintro rfl
  exact absurd path (by decide)

/-- The command lines with a missing input path or a missing argument to `-o` (R299). -/
theorem parseArgs_usage {o : List Byte} (path : isPath o = true) {args : List (List Byte)}
    (form : args ∈ [[], [optionO], [optionO, o]]) : parseArgs args = .usage := by
  simp only [List.mem_cons, List.not_mem_nil, or_false] at form
  rcases form with rfl | rfl | rfl
  · rfl
  · rfl
  · simp [parseArgs, path]

/-- The command lines that name an input path, with and without `-o` (R298). -/
theorem parseArgs_run {w o : List Byte} (wPath : isPath w = true) (oPath : isPath o = true) (apart : w ≠ o)
    (notDefault : w ≠ defaultOutPath) {args : List (List Byte)} (form : args ∈ [[w], [optionO, o, w]]) :
    parseArgs args = .run (if args = [w] then defaultOutPath else o) w := by
  simp only [List.mem_cons, List.not_mem_nil, or_false] at form
  rcases form with rfl | rfl
  · simp [parseArgs, ne_optionO_of_isPath wPath, wPath, notDefault]
  · simp [parseArgs, wPath, oPath, apart]

theorem startUp_of_usage {s : State} (usage : parseArgs s.host.args = .usage) :
    startUp s = .next (fatalExit .usage s) := by
  simp only [startUp, usage]

/-- A file that does not open is reported. -/
theorem startUp_of_closed {s : State} {o i : List Byte} (run : parseArgs s.host.args = .run o i)
    (closed : s.host.sourceFile = none ∨ s.host.outOpens = false) :
    ∃ c, startUp s = .next (fatalExit c s) ∧
      ((c = .unreadableInput ∧ s.host.sourceFile = none) ∨ (c = .unwritableOutput ∧ s.host.outOpens = false)) := by
  cases opened : openFiles s with
  | ok text =>
    obtain ⟨source, out⟩ := openFiles_ok.mp opened
    simp [source, out] at closed
  | error c => exact ⟨c, by simp only [startUp, run, opened], openFiles_error opened⟩

/-- Files that open let the loop begin. -/
theorem startUp_of_open {s : State} {o i text : List Byte} (run : parseArgs s.host.args = .run o i)
    (source : s.host.sourceFile = some text) (out : s.host.outOpens = true) :
    startUp s = .next (enterLoop o i text s) := by
  simp only [startUp, run, openFiles_ok.mpr ⟨source, out⟩]

theorem step_of_startUp {s : State} (turn : s.turn = .startUp) : step s = startUp s := by
  simp only [step, turn]

/-! ### The loop -/

theorem step_of_deliver {s : State} (turn : s.turn = .deliver) : step s = .next (deliver s) := by
  simp only [step, turn]

theorem deliver_of_nil {s : State} (input : s.host.input = []) : deliver s = finishRun s := by
  simp only [deliver, input]

theorem deliver_of_cons {s : State} {c : Byte} {cs p r : List Byte} (input : s.host.input = c :: cs)
    (cut : takePiece Config.lineMax (c :: cs) = (p, r)) : deliver s = deliverPiece p r s := by
  simp only [deliver, input, cut]

/-! ### What the user is told -/

theorem fatalReport_isSome {h : HostData} (reported : h.report ≠ none) : ∃ text, fatalReport h = some text := by
  obtain ⟨cause, report⟩ := Option.ne_none_iff_exists'.mp reported
  exact ⟨_, by rw [fatalReport, report, Option.map_some]⟩

end Sys2Proof.Machine

namespace Sys2Proof

open Machine

/-- Settles O42: what is delivered is in LINE, `done` cleared. -/
theorem nextLineDelivered : Obligations.NextLineDelivered := by
  intro s c cs p r turn input cut
  refine ⟨deliverPiece p r s, ?_, rfl, CoreRegs.lineBytes_present s.core p, rfl, rfl, rfl⟩
  rw [step_of_deliver turn, deliver_of_cons input cut]

/-- Settles O44: the delivery that finds no text ends the run. -/
theorem runEndsWithStatusZero : Obligations.RunEndsWithStatusZero := by
  intro s turn input
  refine ⟨finishRun s, ?_, rfl, rfl, rfl, rfl⟩
  rw [step_of_deliver turn, deliver_of_nil input]

/-- Settles O45: the form of the command line decides what is asked for, and then whether both files open. -/
theorem startUpOutcomes : Obligations.StartUpOutcomes := by
  intro s w o text turn wPath oPath apart notDefault
  rw [step_of_startUp turn]
  refine ⟨fun form => ?usage, fun form closed => ?closed, fun form source out => ?entered⟩
  case usage => exact ⟨_, startUp_of_usage (parseArgs_usage oPath form), rfl, rfl, rfl, rfl⟩
  case closed =>
    obtain ⟨c, fatal, cause⟩ := startUp_of_closed (parseArgs_run wPath oPath apart notDefault form) closed
    refine ⟨_, fatal, rfl, rfl, rfl, ?_⟩
    rcases cause with ⟨rfl, source⟩ | ⟨rfl, out⟩
    · exact .inl ⟨source, rfl⟩
    · exact .inr ⟨out, rfl⟩
  case entered =>
    have entered := startUp_of_open (parseArgs_run wPath oPath apart notDefault form) source out
    exact ⟨_, entered, rfl, rfl, rfl, rfl, rfl, rfl, rfl, rfl, rfl, rfl⟩

/-- Settles O46: in the loop only the end of the run writes the exit status, and nothing writes the report. -/
theorem exitOneOnlyAtStartUp : Obligations.ExitOneOnlyAtStartUp := by
  intro s t h notStartUp
  rcases step_next h with ⟨turn, -⟩ | ⟨-, rfl⟩ | ⟨turn, -⟩ | ⟨-, h⟩ | ⟨-, rfl⟩
  · exact absurd turn notStartUp
  · rcases deliver_cases s with ⟨-, eq⟩ | ⟨_, _, p, r, -, -, eq⟩ <;> simp [eq]
  · obtain ⟨line, -, rfl⟩ := step_of_compile turn h
    simp
  · rcases act_next h with ⟨-, rfl⟩ | ⟨-, _, -, rfl⟩ <;> simp
  · simp

/-- Settles O47: the one report of a fatal error takes the place of the lines of the error stream, one for each
diagnostic. -/
theorem userIsTold : Obligations.UserIsTold := by
  intro h
  refine ⟨fun reported => ?_, fun clean => ?_⟩
  · obtain ⟨text, told⟩ := fatalReport_isSome reported
    rw [userReports_of_some told, List.length_singleton]
  · rw [userReports_of_none clean, errorStream]
    refine ⟨List.length_map _, fun n d entry => ⟨Config.messageBefore d.err.code, Config.messageAfter d.err.code, ?_⟩⟩
    rw [List.getElem?_map, entry, Option.map_some, diagnosticLine]

end Sys2Proof
end

section
/-! SUPPORT and PROOF. Reset (70_reset_and_hazards.md R361 to R364) and the one fault of the model, which no state within the
invariants meets (R325). -/

namespace Sys2Proof.Machine

/-! ### Where a step faults -/

theorem startUp_ne_fault (s : State) (f : Fault) : startUp s ≠ .fault f := by
  unfold startUp
  split
  · simp
  · simp
  · split <;> simp

theorem lineBytes_of_compileLine_fault {s : State} {f : Fault} (h : compileLine s = .fault f) :
    s.core.lineBytes = none := by
  cases present : s.core.lineBytes with
  | none => rfl
  | some line =>
    simp only [compileLine, present, compileBytes_eq_compiled] at h
    split at h <;> cases h

theorem offendingToken_of_act_fault {s : State} {f : Fault} (h : act s = .fault f) :
    s.core.status.ok = false ∧ offendingToken s.core = none := by
  unfold act at h
  split at h
  · cases h
  · rename_i failed
    split at h
    · rename_i unread
      exact ⟨by simpa using failed, unread⟩
    · cases h

/-- A step faults where CompileLine finds a byte of the line not written, or the HOST one of the offending token. -/
theorem step_fault {s : State} {f : Fault} (h : step s = .fault f) :
    s.core.lineBytes = none ∨ s.turn = .act ∧ s.core.status.ok = false ∧ offendingToken s.core = none := by
  cases turn : s.turn <;> simp only [step, turn] at h
  case startUp => exact absurd h (startUp_ne_fault s f)
  case deliver => cases h
  case compile => exact .inl (lineBytes_of_compileLine_fault h)
  case act => exact .inr ⟨rfl, offendingToken_of_act_fault h⟩
  case ended => cases h

/-- Every place within the delivered line can be read. -/
theorem State.BufferInv.readBytes_ne_none {s : State} (inv : s.BufferInv) {a n : Nat} (inside : a + n ≤ s.core.lineLen) :
    Memory.readBytes s.core.line a n ≠ none := by
  obtain ⟨bs, read⟩ := Memory.readBytes_isSome s.core.line a n fun i hi => inv.lineWritten _ (by omega)
  simp [read]

end Sys2Proof.Machine

namespace Sys2Proof

open Machine

/-- Settles O55: the bytes of the line, those of the offending token among them, have all been written. -/
theorem invariantStatesNeverFault : Obligations.InvariantStatesNeverFault := by
  intro s f buffer results h
  rcases step_fault h with noLine | ⟨turn, failed, noToken⟩
  · exact buffer.readBytes_ne_none (Nat.zero_add _).le noLine
  · exact buffer.readBytes_ne_none (results.tokenInLine turn failed) noToken

/-- Settles O49: closed values, computed. -/
theorem coreResetValues : Obligations.CoreResetValues := by
  unfold Obligations.CoreResetValues
  decide

/-- Settles O50: `coreReset` writes CORE and the turn, the turn only while a line is in progress. -/
theorem coreResetKeepsOutput : Obligations.CoreResetKeepsOutput := by
  refine ⟨fun s => ⟨rfl, rfl, ?_, ?_⟩, rfl, rfl, rfl⟩
  · rintro (turn | turn) <;> simp [State.coreReset, turn]
  · intro notCompile notAct
    cases turn : s.turn <;> simp_all [State.coreReset]

/-- Settles O51: LINE_LEN is 0, the record is that of `nop`, nothing has been delivered and no agent but the start-up is
next. -/
theorem resetMeetsInvariants : Obligations.ResetMeetsInvariants := by
  refine ⟨?buffer, ?results, ?output⟩
  case buffer =>
    exact {
      lineWf := Memory.reset_wf
      lineWritten := by decide
      lineFits := Nat.zero_le _
      effFits := Nat.zero_le _
      tok0Fits := Nat.zero_le _
      tok1Fits := Nat.zero_le _
      ntokLegal := by decide
      pstatLegal := by decide }
  case results => constructor <;> decide
  case output => constructor <;> decide

end Sys2Proof
end
